-- ==== Sys2Proof/Word.lean ====
section
/-!
DEFINITION. The widths of 00_scope.md R10: a byte, a 16-bit unsigned integer and a 32-bit unsigned
integer. No value of the block is signed (R11).
-/

namespace Sys2Proof

/-- 8 bits, values 0..255 (R10). -/
abbrev Byte := BitVec 8

/-- `u16` of R10. -/
abbrev Half := BitVec 16

/-- `u32` of R10: a register of the host register space (R33), an IPv4 address (R51). -/
abbrev Word := BitVec 32

end Sys2Proof
end

