-- ==== Sys2Proof/Config.lean ====
section
/-!
DEFINITION. What a build fixes (00_scope.md R8, R9), the answers the outside agents may give
(R14), and the free values: constants without a body, so that nothing can be proved of their value.
-/

namespace Sys2Proof

/-- The strip frame encoding of R9. No other value exists. -/
inductive EncMode where
  /-- Code 0: each channel byte unchanged (30_encoding.md R90). -/
  | direct
  /-- Code 1: four line bytes for each channel byte (30_encoding.md R91). -/
  | ws2812Spi4
deriving DecidableEq, Repr, Inhabited

/-- The answer of `Bind()` (R14). -/
inductive BindAnswer where
  | ok
  | failed
deriving DecidableEq, Repr, Inhabited

/-- The answer of `Send(dst, bytes)` (R14). -/
inductive SendAnswer where
  | ok
  | fail
deriving DecidableEq, Repr, Inhabited

/-- The answer of `Transmit(frame)` (R14). A failed write carries the bytes that reached the line,
which are under no law (41_command_execution.md R108). -/
inductive TransmitAnswer where
  | ok
  | busBusy (line : List Byte)
  | timeout (line : List Byte)
deriving DecidableEq, Repr, Inhabited

/-- The build-time parameters of R8 that some rule reads and a build may vary. They stand in State
because the spec makes the model take them as an argument and `step` has only the state; no step
changes them (assumption log 3). -/
structure Build where
  /-- `RX_CAP`, the receive-buffer capacity in bytes. -/
  rxCap : Nat
  /-- `VCHK_POLLREPLY`: whether the version check also applies to OpPollReply. -/
  vchkPollReply : Bool
  /-- `ENC_MODE`. -/
  encMode : EncMode
  /-- `TRAILER_LEN`, the zero bytes after each frame. -/
  trailerLen : Nat
  /-- `CLK_OK` as data: the closed ranges of `SER_CLK_HZ` it accepts. Zero is rejected whatever
  stands here (assumption log 4). -/
  clkRanges : List (Word × Word)
  /-- `RXQ_DEPTH`, the depth of the network collaborator's receive queue. -/
  rxqDepth : Nat
deriving DecidableEq, Repr

/-- `PROT_VER` (R8). -/
def Config.protVer : Half := 14

/-- `MAX_CHANNELS` (R8). -/
def Config.maxChannels : Nat := 512

/-- `ART_PORT` (R8). -/
def Config.artPort : Half := 6454

/-- `BCAST_ADDR` (R8): 255.255.255.255. -/
def Config.bcastAddr : Word := 0xFFFFFFFF

/-- `POLLREPLY_LEN` (R8). -/
def Config.pollReplyLen : Nat := 239

/-- The block's identity string (R2). -/
def Config.identity : String := "ANSLC-artnet14-dmx512"

/-- `CLK_OK` is OPEN (R8): the ranges a build accepts, left free (assumption log 4). -/
opaque Config.clkRanges : List (Word × Word)

/-- `RXQ_DEPTH` is OPEN (R8): left free (assumption log 4). -/
opaque Config.rxqDepth : Nat

/-- `REG_BASE` is OPEN (20_memory.md R63). The model's host accesses carry offsets, as the spec's
`RD` and `WR` do, so no step reads it (assumption log 4). -/
opaque Config.regBase : Nat

/-- `WRITE_TIMEOUT` is OPEN and owned by the sink (60_exceptions.md R142). The model has no time,
so no step reads it (assumption log 4). -/
opaque Config.writeTimeout : Nat

/-- The build of R8's table: the spec's values, and free values for the OPEN parameters. -/
def Config.build : Build where
  rxCap := 1024
  vchkPollReply := true
  encMode := .direct
  trailerLen := 0
  clkRanges := Config.clkRanges
  rxqDepth := Config.rxqDepth

/-- The `n`-th draw of a `Bind` answer, under no law (assumption log 2). -/
opaque Config.bindAnswer : Nat → BindAnswer

/-- The `n`-th draw of a `Send` answer, under no law (assumption log 2). -/
opaque Config.sendAnswer : Nat → SendAnswer

/-- The `n`-th draw of a `Transmit` answer and of the bytes a failed write put on the line, under no
law (R108, assumption log 2). -/
opaque Config.transmitAnswer : Nat → TransmitAnswer

end Sys2Proof
end

