-- ==== Sys2Proof/Syntax.lean ====
section
/-!
DEFINITION. The commands: one constructor for each row of spec/opcode_table.json. An instruction of
this block is one received datagram (30_encoding.md), decoded into the source's ArtCommand
(00_scope.md R18); the fields are those the command latch keeps for the tag (10_state.md R31).
-/

namespace Sys2Proof

/-- The ArtCommand of R18 with the fields of the command latch (R31). The channel data of an Output
is not copied: it stays in the datagram latch (R31, R54). -/
inductive Instr where
  /-- OpPoll, opcode 0x2000 (R75): `cmd.flags` and `cmd.diag`. -/
  | opPoll (flags diag : Byte)
  /-- OpPollReply, opcode 0x2100 (R77): nothing of its body is kept. -/
  | opPollReply
  /-- OpOutput, also called OpDmx, opcode 0x5000 (R76): `cmd.seq`, `cmd.universe`, `cmd.data_len`. -/
  | opOutput (seq : Byte) (uni : Half) (dataLen : BitVec 10)
  /-- Every other opcode (R83). -/
  | other (opcode : Half)
deriving DecidableEq, Repr, Inhabited

end Sys2Proof
end

