-- ==== Sys2Proof/WellFormed.lean ====
section
/-!
DEFINITION. Which commands the decoder can answer: an Output carries at most 512 channels
(10_state.md R31, 40_packet_decoder.md R97), and `Other` stands for an opcode outside the three rows
of 30_encoding.md R83.
-/

namespace Sys2Proof

/-- The check on an Output's length (R31: 0 ≤ data_len ≤ 512). -/
def Instr.lengthOk : Instr → Bool
  | .opPoll _ _ => true
  | .opPollReply => true
  | .opOutput _ _ n => decide (n.toNat ≤ Config.maxChannels)
  | .other _ => true

/-- The check on an Other's opcode (R98: op ∉ {0x2000, 0x2100, 0x5000}). -/
def Instr.opcodeOk : Instr → Bool
  | .opPoll _ _ => true
  | .opPollReply => true
  | .opOutput _ _ _ => true
  | .other op => op != 0x2000 && op != 0x2100 && op != 0x5000

/-- A command the decoder can answer. -/
def Instr.wf (i : Instr) : Bool := i.lengthOk && i.opcodeOk

end Sys2Proof
end

