-- ==== Sys2Proof/Decode.lean ====
section
/-!
DEFINITION. The Art-Net packet parser (40_packet_decoder.md) and, after it, the encoder of the
datagrams it reads (30_encoding.md R74 to R87). All lengths and offsets are naturals (00_scope.md R10).
-/

namespace Sys2Proof

/-- `DecodeError` of R18. -/
inductive DecodeError where
  /-- The identifier, the header's length or the version is wrong (R93). -/
  | badHeader
  /-- The datagram is shorter than its opcode needs, or declares over 512 channels (R94, R97). -/
  | truncated
deriving DecidableEq, Repr

/-- What `decode` answers (R92). -/
inductive DecodeResult where
  | ok (cmd : Instr)
  | err (e : DecodeError)
deriving DecidableEq, Repr

/-- The Art-Net identifier `41 72 74 2D 4E 65 74 00` (R74). -/
def artNetId : List Byte := [0x41, 0x72, 0x74, 0x2D, 0x4E, 0x65, 0x74, 0x00]

/-- `buf[k]` of 00_scope.md R12. The decoder reads it only below the datagram's length. -/
def byteAt (buf : List Byte) (k : Nat) : Byte := buf.getD k 0

/-- `u16le(buf, k)`: low byte first (R12). -/
def u16le (buf : List Byte) (k : Nat) : Half := byteAt buf (k + 1) ++ byteAt buf k

/-- `u16be(buf, k)`: high byte first (R12). -/
def u16be (buf : List Byte) (k : Nat) : Half := byteAt buf k ++ byteAt buf (k + 1)

/-- Bits 7:0 of a 16-bit value. -/
def lowByte (h : Half) : Byte := h.extractLsb' 0 8

/-- Bits 15:8 of a 16-bit value. -/
def highByte (h : Half) : Byte := h.extractLsb' 8 8

/-- The header check of R93, applied before the opcode is looked at: identifier, header length,
version. Only OpPollReply may skip the version test, when `VCHK_POLLREPLY` is false. -/
def headerOk (vchk : Bool) (buf : List Byte) : Bool :=
  decide (8 ≤ buf.length) && buf.take 8 == artNetId && decide (12 ≤ buf.length) &&
    (u16be buf 10 == Config.protVer || (u16le buf 8 == 0x2100 && !vchk))

/-- Decoding of OpPoll (R94). -/
def decodePoll (buf : List Byte) : DecodeResult :=
  if buf.length < 14 then .err .truncated
  else .ok (.opPoll (byteAt buf 12) (byteAt buf 13))

/-- Decoding of OpPollReply (R95): nothing past the header is read. -/
def decodePollReply : DecodeResult := .ok .opPollReply

/-- Decoding of OpOutput and its length validation (R96, R97). -/
def decodeOutput (buf : List Byte) : DecodeResult :=
  if buf.length < 18 then .err .truncated
  else
    let len := (u16be buf 16).toNat
    if Config.maxChannels < len then .err .truncated
    else if buf.length < 18 + len then .err .truncated
    else .ok (.opOutput (byteAt buf 12) (u16le buf 14) (BitVec.ofNat 10 len))

/-- Decoding of every other opcode (R98). -/
def decodeOther (op : Half) : DecodeResult := .ok (.other op)

/-- The decode function of R92: total on any bytes, a command or one of the two errors. -/
def decode (vchk : Bool) (buf : List Byte) : DecodeResult :=
  if headerOk vchk buf then
    let op := u16le buf 8
    if op = 0x2000 then decodePoll buf
    else if op = 0x2100 then decodePollReply
    else if op = 0x5000 then decodeOutput buf
    else decodeOther op
  else .err .badHeader

/-- `cmd.opcode`, valid for every tag (10_state.md R31). -/
def Instr.opcode : Instr → Half
  | .opPoll _ _ => 0x2000
  | .opPollReply => 0x2100
  | .opOutput _ _ _ => 0x5000
  | .other op => op

/-- `cmd.tag` with its codes POLL = 0, POLLREPLY = 1, OUTPUT = 2, OTHER = 3 (10_state.md R31). -/
def Instr.tag : Instr → BitVec 2
  | .opPoll _ _ => 0
  | .opPollReply => 1
  | .opOutput _ _ _ => 2
  | .other _ => 3

/-- How many bytes of channel data the command carries: `cmd.data_len` for an Output, none else. -/
def Instr.channels : Instr → Nat
  | .opPoll _ _ => 0
  | .opPollReply => 0
  | .opOutput _ _ n => n.toNat
  | .other _ => 0

/-- The `min_length` of the command's row of spec/opcode_table.json. -/
def Instr.minLength : Instr → Nat
  | .opPoll _ _ => 14
  | .opPollReply => 12
  | .opOutput _ _ _ => 18
  | .other _ => 12

/-- `HDR(op, ver)` of R87: the 12-byte common header of R74. -/
def header (op ver : Half) : List Byte :=
  artNetId ++ [lowByte op, highByte op, highByte ver, lowByte ver]

/-- The datagram of a command, with the parts the command latch does not keep: the Physical byte and
the channel data of an Output (R76, R87). -/
def encodeWith (phys : Byte) (data : List Byte) : Instr → List Byte
  | .opPoll flags diag => header 0x2000 Config.protVer ++ [flags, diag]
  | .opPollReply => header 0x2100 Config.protVer
  | .opOutput seq uni n =>
    header 0x5000 Config.protVer ++
      [seq, phys, lowByte uni, highByte uni, highByte (n.setWidth 16), lowByte (n.setWidth 16)] ++ data
  | .other op => header op Config.protVer

/-- The datagram of a command whose Physical byte and channel data are zero. -/
def encode (i : Instr) : List Byte := encodeWith 0 (List.replicate i.channels 0) i

/-- Byte `k` of a natural read as a little-endian sequence of bytes. -/
def natByte (w k : Nat) : Byte := BitVec.ofNat 8 (w >>> (8 * k))

/-- The datagram spec/opcode_table.json's bits stand for. The table numbers the bits of the opcode
field alone (its `selector`: `u16le(datagram, 8)`), so bits 15:0 are bytes 8 and 9; the header bytes
the table fixes stand around them (identifier, version 14); bits from 16 up, zero above `nbits`, are
the operand bytes from offset 12, as many as the longest format has: six and the channel data its
length bytes declare (assumption log 12). -/
def tableDatagram (nbits w : Nat) : List Byte :=
  let v := w % 2 ^ nbits
  let len := 256 * (natByte v 6).toNat + (natByte v 7).toNat
  artNetId ++ [natByte v 0, natByte v 1, highByte Config.protVer, lowByte Config.protVer] ++
    (List.range (6 + min len Config.maxChannels)).map fun k => natByte v (k + 2)

/-- The command the decoder reads from a row's bits. -/
def decodeTableWord (nbits w : Nat) : Option Instr :=
  match decode true (tableDatagram nbits w) with
  | .ok i => some i
  | .err _ => none

end Sys2Proof
end

