-- ==== Sys2Proof/Machine/State.lean ====
section
/-!
DEFINITION. The machine's state as plain data (10_state.md), the reasons a step can stop, and the
machine right after reset (70_reset_and_hazards.md R149).
-/

namespace Sys2Proof.Machine

/-- The datagram space's bytes (20_memory.md R49) as (offset, byte) pairs, offsets strictly rising.
An offset that is not listed holds no value: reading it is a fault (93 U13, U14; assumption log 5). -/
abbrev Memory := List Host.Cell

/-- A point of the UDP endpoint space (20_memory.md R51). -/
structure Endpoint where
  ip : Word
  port : Half
deriving DecidableEq, Repr, Inhabited

/-- What the network collaborator delivers (00_scope.md R14, R17). `src = none` is a datagram
delivered without a source address (10_state.md R30). -/
structure Datagram where
  bytes : List Byte
  src : Option Endpoint
deriving DecidableEq, Repr, Inhabited

/-- The FSM state register of R26. -/
inductive Fsm where
  | config
  | starting
  | idle
  | receiving
  | decoding
  | dispatching
  | halted
deriving DecidableEq, Repr, Inhabited

/-- The halt codes of 60_exceptions.md R131. -/
inductive HaltCause where
  | none
  | notReadyNet
  | notReadySink
  | clockInvalid
  | bindFailed
  | recvFatal
deriving DecidableEq, Repr, Inhabited

/-- The event codes of 60_exceptions.md R130. -/
inductive Event where
  | none
  | pollReplied
  | pollReplyFailed
  | pollReplyIgnored
  | outputWritten
  | writeBusBusy
  | writeTimeout
  | otherIgnored
  | badHeader
  | truncated
deriving DecidableEq, Repr, Inhabited

/-- The names of the twelve counters (10_state.md R41). -/
inductive Counter where
  | rx
  | badHeader
  | truncated
  | poll
  | pollReply
  | output
  | other
  | writeOk
  | busBusy
  | timeout
  | replySent
  | replyFail
deriving DecidableEq, Repr, Inhabited

/-- The twelve counter registers, 32 bits each (R41). -/
structure Counters where
  /-- CNT_RX, 0x100. -/
  rx : Word := 0
  /-- CNT_BAD_HEADER, 0x104. -/
  badHeader : Word := 0
  /-- CNT_TRUNCATED, 0x108. -/
  truncated : Word := 0
  /-- CNT_POLL, 0x10C. -/
  poll : Word := 0
  /-- CNT_POLLREPLY, 0x110. -/
  pollReply : Word := 0
  /-- CNT_OUTPUT, 0x114. -/
  output : Word := 0
  /-- CNT_OTHER, 0x118. -/
  other : Word := 0
  /-- CNT_WRITE_OK, 0x11C. -/
  writeOk : Word := 0
  /-- CNT_BUS_BUSY, 0x120. -/
  busBusy : Word := 0
  /-- CNT_TIMEOUT, 0x124. -/
  timeout : Word := 0
  /-- CNT_REPLY_SENT, 0x128. -/
  replySent : Word := 0
  /-- CNT_REPLY_FAIL, 0x12C. -/
  replyFail : Word := 0
deriving DecidableEq, Repr

/-- The configuration registers of R32: the byte clock and the NodeIdentity. Reserved bits are not
stored; they read 0 (R38, R39, R40). -/
structure NodeCfg where
  /-- SER_CLK_HZ (R36). -/
  serClkHz : Word := 0
  /-- NODE_IP (R37). -/
  nodeIp : Word := 0
  /-- NODE_MAC_HI (R38): octets m0..m3, m0 in bits 31:24. -/
  nodeMacHi : Word := 0
  /-- NODE_MAC_LO bits 31:16 (R38): octets m4, m5, m4 in the high byte. -/
  nodeMacLo : Half := 0
  /-- NUM_PORTS bits 15:0 (R39). -/
  numPorts : Half := 1
  /-- SHORT_NAME (R40). -/
  shortName : Vector Byte 18 := Vector.replicate 18 0
  /-- LONG_NAME (R40). -/
  longName : Vector Byte 64 := Vector.replicate 64 0
deriving DecidableEq, Repr

/-- How a frame write ended (10_state.md R44). -/
inductive WriteResult where
  | ok
  | busBusy
  | timeout
deriving DecidableEq, Repr, Inhabited

/-- An entry of the output history (R44). -/
inductive HistEntry where
  /-- For every `Send`. -/
  | reply (dst : Endpoint) (bytes : List Byte) (result : SendAnswer)
  /-- For every `Transmit`: the bytes asked for, the answer, the bytes the line carried. -/
  | frame (frame : List Byte) (result : WriteResult) (line : List Byte)
  /-- For the startup bind. -/
  | bind (result : BindAnswer)
deriving DecidableEq, Repr

/-- A host access to the register space (42_receive_loop_and_host.md R126, R127), `bytes` wide. -/
inductive HostOp where
  | read (off bytes : Nat)
  | write (off bytes : Nat) (v : Word)
deriving DecidableEq, Repr

/-- A move of an agent, taken between two steps of the block (20_memory.md R61; 60_exceptions.md
R144; assumption log 1). -/
inductive Move where
  /-- The block's turn: its step if it has one. -/
  | block
  /-- A host access. -/
  | host (op : HostOp)
  /-- A reset between two steps of the block (R148), power-on included (R147). -/
  | reset
  /-- A reset in the middle of the block's current step (R148, R150): `carried` is what the serial
  line carried of an interrupted `Transmit`, `done` whether an interrupted `Send` or `Recv` had taken
  effect at the network collaborator, `entry` whether the history holds the `Reply` entry of an
  interrupted `Send`, and with which answer (93 U23; assumption log 9). -/
  | resetMid (carried : List Byte) (done : Bool) (entry : Option SendAnswer)
  /-- The input `net_ready` takes a level (10_state.md R43). -/
  | setNetReady (b : Bool)
  /-- The input `sink_ready` takes a level (R43). -/
  | setSinkReady (b : Bool)
  /-- A datagram arrives at the network collaborator (10_state.md R45). -/
  | arrive (d : Datagram)
  /-- A fatal receive condition arises at the network collaborator (00_scope.md R14, 60_exceptions.md
  R144: it may signal `RecvFatal`). It stays until a `Recv` answers it (assumption log 8). -/
  | signalRxFatal
deriving DecidableEq, Repr

/-- The outside agents' side of the interface. -/
structure Env where
  /-- The input `net_ready` (R43). -/
  netReady : Bool := false
  /-- The input `sink_ready` (R43). -/
  sinkReady : Bool := false
  /-- The network collaborator's receive queue, oldest first (R45). -/
  rxq : List Datagram := []
  /-- Whether the network collaborator holds a fatal receive condition (R14; assumption log 8). -/
  rxFatal : Bool := false
  /-- The answers of `Bind` still to come (assumption log 2). -/
  bindAns : List BindAnswer := []
  /-- The answers of `Send` still to come (assumption log 2). -/
  sendAns : List SendAnswer := []
  /-- The answers of `Transmit` still to come (assumption log 2). -/
  txAns : List TransmitAnswer := []
  /-- The model's own: how many answers were asked for; what the free answers are applied to. -/
  draws : Nat := 0
  /-- The bytes the serial output line has carried (20_memory.md R52). -/
  line : List Byte := []
  /-- The datagrams that went out to the UDP endpoint space (20_memory.md R51; assumption log 10). -/
  sent : List (Endpoint × List Byte) := []
  /-- The model's own: what the host's last read returned (R126; assumption log 11). -/
  rdata : Word := 0
  /-- The moves that come before the block steps of its own accord (assumption log 1). -/
  agenda : List Move := []
deriving DecidableEq, Repr

/-- The machine: the block's own state, its build parameters, and the interface to its outside. -/
structure State where
  /-- The FSM state register (R26). -/
  fsm : Fsm
  /-- `rx_buf` of the datagram latch (R29). -/
  rxBuf : Memory
  /-- `rx_len` of the datagram latch (R29). -/
  rxLen : Nat
  /-- `rx_src` of the datagram latch; `none` is present = 0 (R29, R30). -/
  rxSrc : Option Endpoint
  /-- The command latch (R31): the tag and the fields valid for it (assumption log 6). -/
  cmd : Instr
  /-- The configuration registers (R32). -/
  cfg : NodeCfg
  /-- The counters (R41). -/
  cnt : Counters
  /-- STATUS.HALT_CAUSE (R35). -/
  haltCause : HaltCause
  /-- STATUS.LAST_EVENT (R35). -/
  lastEvent : Event
  /-- LAST_OPCODE (R42). -/
  lastOpcode : Half
  /-- LAST_OUT_UNIVERSE (R42). -/
  lastOutUniverse : Half
  /-- LAST_OUT_SEQ (R42). -/
  lastOutSeq : Byte
  /-- LAST_OUT_LEN (R42). -/
  lastOutLen : BitVec 10
  /-- The output history H (R44). -/
  hist : List HistEntry
  /-- The build-time parameters (00_scope.md R8; assumption log 3). -/
  build : Build
  /-- The outside agents' side. -/
  env : Env
deriving DecidableEq, Repr

/-- Why a step stops where the block has no step (assumption log 13), or where a byte without a value
would be read (assumption log 5). -/
inductive Fault where
  /-- `rx_buf` is read at an offset that holds no value: at or past `rx_len`, or never written (93
  U13, U14). Raised by the DECODING step and by OpOutput. Safe: no rule makes such a read, and no
  state reached from reset does. -/
  | latchRead
  /-- CONFIG with no host move left: the FSM has no step (R116, R125). A stuck state, not an error
  of the hardware. Safe: the model stops where the block waits. -/
  | configWaits
  /-- IDLE with nothing pending: the FSM has no step (R119, R125). A stuck state, not an error of
  the hardware. Safe: the model stops where the block waits. -/
  | idleWaits
  /-- RECEIVING while the collaborator holds neither a datagram nor a fatal condition: `Recv` has no
  answer of R14 to give. Raised by the RECEIVING step. Safe: no state reached from reset is one, since
  IDLE is left only with something pending (R119) and nothing pending goes away before `Recv`. -/
  | recvUnanswered
  /-- HALTED: the FSM has no step (R123, R125). A stuck state; only reset leaves it. Safe: the
  hardware takes no step either. -/
  | haltedStops
deriving DecidableEq, Repr

/-- Why the model gives a step no meaning. -/
inductive Refusal where
  /-- An instruction that has no meaning yet; raised by a refused arm of `exec` only. Safe: nothing
  is claimed about it. -/
  | notModelled (mnemonic : String)
  /-- A host access that is not 32 bits wide, not at a multiple of 4, or beyond 0x1FF: outside the
  interface (R59, R128). Raised by a host access. Safe: nothing is claimed about it. -/
  | hostAccess
deriving DecidableEq, Repr

/-- The machine right after reset (R149). Where R149 says unspecified, or the element is the
environment's, the value is a DESIGN CHOICE, unsafe, that assumption log 5, 6 or 7 names. -/
def State.reset : State where
  fsm := .config
  rxBuf := []
  rxLen := 0
  rxSrc := .none
  cmd := .opPoll 0 0
  cfg := {}
  cnt := {}
  haltCause := .none
  lastEvent := .none
  lastOpcode := 0
  lastOutUniverse := 0
  lastOutSeq := 0
  lastOutLen := 0
  hist := []
  build := Config.build
  env := {}

end Sys2Proof.Machine
end

