-- ==== Sys2Proof/Machine/Ops.lean ====
section
/-!
DEFINITION. The named operations over the datagram latch, the counters, the history and the
environment's answers, and the two entries into error handling (60_exceptions.md R135, R136), which
every step shares.
-/

namespace Sys2Proof.Machine

/-- The canonical form of the datagram space: offsets strictly rising. An unlisted offset holds no
value, so no listed byte equals what an unlisted offset reads as. -/
abbrev Memory.wf (m : Memory) : Prop := m.Pairwise fun x y => x.1 < y.1

/-- The byte at an offset, if one was written. -/
def Memory.read (m : Memory) (a : Nat) : Option Byte := List.lookup a m

/-- Bytes at consecutive offsets. -/
def Memory.cellsFrom (base : Nat) : List Byte → Memory
  | [] => []
  | b :: bs => (base, b) :: Memory.cellsFrom (base + 1) bs

/-- Writes consecutive bytes; every other offset keeps what it held. -/
def Memory.write (base : Nat) (bs : List Byte) (m : Memory) : Memory :=
  m.filter (fun c => c.1 < base) ++ Memory.cellsFrom base bs ++
    m.filter (fun c => base + bs.length ≤ c.1)

/-- The `n` bytes from offset `a`, if all of them were written. One pass over the rising offsets. -/
def Memory.readRange : Memory → Nat → Nat → Option (List Byte)
  | [], _, n => if n = 0 then some [] else none
  | c :: m, a, n =>
    if n = 0 then some []
    else if c.1 < a then Memory.readRange m a n
    else if c.1 = a then (Memory.readRange m (a + 1) (n - 1)).map (c.2 :: ·)
    else none

/-- `MemRead(a, n)` of 00_scope.md R13: the datagram bytes at offset `a`, defined only when
`a + n ≤ rx_len`. -/
def State.memRead (s : State) (a n : Nat) : Option (List Byte) :=
  if a + n ≤ s.rxLen then Memory.readRange s.rxBuf a n else none

/-- Latches a datagram (42_receive_loop_and_host.md R120): cut to `RX_CAP` bytes, with its source. -/
def State.latch (d : Datagram) (s : State) : State :=
  { s with
    rxLen := min d.bytes.length s.build.rxCap
    rxBuf := Memory.write 0 (d.bytes.take s.build.rxCap) s.rxBuf
    rxSrc := d.src }

/-- What the network collaborator holds after a `Recv` has answered (00_scope.md R14, R120): the fatal
condition is answered first and is then gone, else the oldest datagram is (assumption log 8). -/
def Env.afterRecv (e : Env) : Env :=
  if e.rxFatal then { e with rxFatal := false } else { e with rxq := e.rxq.tail }

/-- A counter's value (10_state.md R41). -/
def Counters.get (k : Counters) : Counter → Word
  | .rx => k.rx
  | .badHeader => k.badHeader
  | .truncated => k.truncated
  | .poll => k.poll
  | .pollReply => k.pollReply
  | .output => k.output
  | .other => k.other
  | .writeOk => k.writeOk
  | .busBusy => k.busBusy
  | .timeout => k.timeout
  | .replySent => k.replySent
  | .replyFail => k.replyFail

/-- `count` of 00_scope.md R13: the counter plus one, modulo 2^32. -/
def Counters.bump (k : Counters) : Counter → Counters
  | .rx => { k with rx := k.rx + 1 }
  | .badHeader => { k with badHeader := k.badHeader + 1 }
  | .truncated => { k with truncated := k.truncated + 1 }
  | .poll => { k with poll := k.poll + 1 }
  | .pollReply => { k with pollReply := k.pollReply + 1 }
  | .output => { k with output := k.output + 1 }
  | .other => { k with other := k.other + 1 }
  | .writeOk => { k with writeOk := k.writeOk + 1 }
  | .busBusy => { k with busBusy := k.busBusy + 1 }
  | .timeout => { k with timeout := k.timeout + 1 }
  | .replySent => { k with replySent := k.replySent + 1 }
  | .replyFail => { k with replyFail := k.replyFail + 1 }

/-- `count(CNT_X)` (R13). -/
def State.count (c : Counter) (s : State) : State := { s with cnt := s.cnt.bump c }

/-- `H <- H ++ [e]` (10_state.md R44). -/
def State.record (e : HistEntry) (s : State) : State := { s with hist := s.hist ++ [e] }

/-- `fsm <- STATE` (R13). -/
def State.goto (f : Fsm) (s : State) : State := { s with fsm := f }

/-- The end of a datagram's processing: the event code and the edge to IDLE (60_exceptions.md R130).
For a contained error this edge is the return from it (R138). -/
def State.finish (e : Event) (s : State) : State := { s with lastEvent := e, fsm := .idle }

/-- Entry for a contained error, and its return (R135, R138): the error's counter, the event code,
the edge to IDLE, nothing else. The history entry, where the error is an answer, is appended by the
request. -/
def State.contain (c : Counter) (e : Event) (s : State) : State := (s.count c).finish e

/-- Entry for a fatal error (R136): the halt code and the edge to HALTED, nothing else. -/
def State.halt (c : HaltCause) (s : State) : State := { s with haltCause := c, fsm := .halted }

/-- The answer `Bind` gives next: the environment's, or a free one (assumption log 2). -/
def State.bindAnswer (s : State) : BindAnswer :=
  match s.env.bindAns with
  | r :: _ => r
  | [] => Config.bindAnswer s.env.draws

/-- The answer `Send` gives next: the environment's, or a free one (assumption log 2). -/
def State.sendAnswer (s : State) : SendAnswer :=
  match s.env.sendAns with
  | r :: _ => r
  | [] => Config.sendAnswer s.env.draws

/-- The answer `Transmit` gives next: the environment's, or a free one (assumption log 2). -/
def State.transmitAnswer (s : State) : TransmitAnswer :=
  match s.env.txAns with
  | r :: _ => r
  | [] => Config.transmitAnswer s.env.draws

/-- The bytes of a request that the network carried: those of a `Send` answered `Ok`
(assumption log 10). -/
def sentBytes (dst : Endpoint) (bytes : List Byte) : SendAnswer → List (Endpoint × List Byte)
  | .ok => [(dst, bytes)]
  | .fail => []

/-- The `result` of a frame's history entry (R44). -/
def writeResult : TransmitAnswer → WriteResult
  | .ok => .ok
  | .busBusy _ => .busBusy
  | .timeout _ => .timeout

/-- The bytes the line carried of a frame: the frame itself on `Ok`, the answer's unconstrained bytes
on a failure (41_command_execution.md R106, R108). -/
def lineBytes (frame : List Byte) : TransmitAnswer → List Byte
  | .ok => frame
  | .busBusy l => l
  | .timeout l => l

/-- `Bind()` answered and recorded (42_receive_loop_and_host.md R118). -/
def State.bind (s : State) : State :=
  { s with
    hist := s.hist ++ [.bind s.bindAnswer]
    env := { s.env with bindAns := s.env.bindAns.tail, draws := s.env.draws + 1 } }

/-- `Send(dst, bytes)` answered and recorded (R102). -/
def State.send (dst : Endpoint) (bytes : List Byte) (s : State) : State :=
  { s with
    hist := s.hist ++ [.reply dst bytes s.sendAnswer]
    env := { s.env with
      sent := s.env.sent ++ sentBytes dst bytes s.sendAnswer
      sendAns := s.env.sendAns.tail
      draws := s.env.draws + 1 } }

/-- `Transmit(frame)` answered and recorded, its bytes on the line (R106; 20_memory.md R52). -/
def State.transmit (frame : List Byte) (s : State) : State :=
  { s with
    hist := s.hist ++
      [.frame frame (writeResult s.transmitAnswer) (lineBytes frame s.transmitAnswer)]
    env := { s.env with
      line := s.env.line ++ lineBytes frame s.transmitAnswer
      txAns := s.env.txAns.tail
      draws := s.env.draws + 1 } }

end Sys2Proof.Machine
end

