-- ==== Sys2Proof/Machine/Loop.lean ====
section
/-!
DEFINITION. The receive loop and startup (42_receive_loop_and_host.md R115 to R125): the step of each
FSM state but DISPATCHING, whose step is the router's (Machine/Dispatch.lean).
-/

namespace Sys2Proof.Machine

/-- `CLK_OK` (00_scope.md R8): a frequency in one of the build's accepted ranges, never 0. -/
def clkOk (b : Build) (hz : Word) : Bool :=
  hz != 0 && b.clkRanges.any fun r => decide (r.1 ≤ hz) && decide (hz ≤ r.2)

/-- The STARTING step (R118): the checks in order, the first failure halts; then `Bind`. -/
def startStep (s : State) : State :=
  if !s.env.netReady then s.halt .notReadyNet
  else if !s.env.sinkReady then s.halt .notReadySink
  else if !clkOk s.build s.cfg.serClkHz then s.halt .clockInvalid
  else
    match s.bindAnswer with
    | .ok => s.bind.goto .idle
    | .failed => s.bind.halt .bindFailed

/-- `RxPending()` (00_scope.md R14): the collaborator holds a datagram or a fatal condition. -/
def rxPending (s : State) : Bool := s.env.rxFatal || !s.env.rxq.isEmpty

/-- The IDLE step (R119). -/
def idleStep (s : State) : Host.Outcome State Fault Refusal :=
  if rxPending s then .next (s.goto .receiving) else .fault .idleWaits

/-- The RECEIVING step (R120): `Recv()` answers the fatal condition, or the oldest datagram, which is
latched and counted. Stops only where nothing is pending, which no state reached from reset has. -/
def receiveStep (s : State) : Host.Outcome State Fault Refusal :=
  if s.env.rxFatal then .next ({ s with env := s.env.afterRecv }.halt .recvFatal)
  else
    match s.env.rxq with
    | [] => .fault .recvUnanswered
    | d :: _ => .next ((({ s with env := s.env.afterRecv }.latch d).count .rx).goto .decoding)

/-- The counter a decoded command counts (R121). -/
def cmdCounter : Instr → Counter
  | .opPoll _ _ => .poll
  | .opPollReply => .pollReply
  | .opOutput _ _ _ => .output
  | .other _ => .other

/-- The LAST_OUT_* registers a decoded Output writes (R121; 10_state.md R42). -/
def State.showOutput (s : State) : Instr → State
  | .opPoll _ _ => s
  | .opPollReply => s
  | .opOutput seq uni n => { s with lastOutUniverse := uni, lastOutSeq := seq, lastOutLen := n }
  | .other _ => s

/-- The DECODING step's record of a decoded command (R121). -/
def State.accept (i : Instr) (s : State) : State :=
  (({ s with cmd := i, lastOpcode := i.opcode }.count (cmdCounter i)).showOutput i).goto .dispatching

/-- The DECODING step's record of an outcome (R121). `Truncated` is raised only after the header
passed, so the opcode is the datagram's. -/
def State.decoded (buf : List Byte) (r : DecodeResult) (s : State) : State :=
  match r with
  | .err .badHeader => s.contain .badHeader .badHeader
  | .err .truncated => { s with lastOpcode := u16le buf 8 }.contain .truncated .truncated
  | .ok i => s.accept i

/-- The DECODING step (R121): `decode` on the latched datagram. Stops only where the latch holds no
value (93 U13). -/
def decodeStep (s : State) : Host.Outcome State Fault Refusal :=
  match s.memRead 0 s.rxLen with
  | .none => .fault .latchRead
  | some buf => .next (s.decoded buf (decode s.build.vchkPollReply buf))

/-- CONFIG has no step of its own; only the host's START write leaves it (R116). -/
def configStep (_ : State) : Host.Outcome State Fault Refusal := .fault .configWaits

/-- HALTED has no step; only reset leaves it (R123). -/
def haltedStep (_ : State) : Host.Outcome State Fault Refusal := .fault .haltedStops

/-- Whether the FSM has an enabled step: not in CONFIG, in HALTED, or in IDLE with nothing pending, and
in every other state (R115, R125). -/
def blockEnabled (s : State) : Bool :=
  match s.fsm with
  | .config => false
  | .starting => true
  | .idle => rxPending s
  | .receiving => true
  | .decoding => true
  | .dispatching => true
  | .halted => false

/-- The state in which the block's next step runs the command of a given datagram: the datagram is in
the latch, its command in the command latch, nobody else's move comes first. Where the datagram does
not decode, the next step is the DECODING step that says so. The source of the latched datagram, and
everything else, stays. -/
def State.loadCommand (bytes : List Byte) (s : State) : State :=
  let l := s.latch ⟨bytes, s.rxSrc⟩
  let l := { l with env := { l.env with agenda := [] } }
  match decode s.build.vchkPollReply (bytes.take s.build.rxCap) with
  | .ok i => { l with cmd := i, fsm := .dispatching }
  | .err _ => { l with fsm := .decoding }

end Sys2Proof.Machine
end

