-- ==== Sys2Proof/Machine/Flags.lean ====
section
/-!
DEFINITION. The status bits (10_state.md R28): the numeric codes of the FSM state, the halt causes and
the events, and the STATUS word they make up (R35). The block has no condition codes.
-/

namespace Sys2Proof.Machine

/-- The 3-bit code of an FSM state (R26). -/
def Fsm.code : Fsm → BitVec 3
  | .config => 0
  | .starting => 1
  | .idle => 2
  | .receiving => 3
  | .decoding => 4
  | .dispatching => 5
  | .halted => 7

/-- The halt codes of 60_exceptions.md R131. -/
def HaltCause.code : HaltCause → BitVec 4
  | .none => 0
  | .notReadyNet => 1
  | .notReadySink => 2
  | .clockInvalid => 3
  | .bindFailed => 4
  | .recvFatal => 5

/-- The event codes of 60_exceptions.md R130. -/
def Event.code : Event → BitVec 4
  | .none => 0
  | .pollReplied => 1
  | .pollReplyFailed => 2
  | .pollReplyIgnored => 3
  | .outputWritten => 4
  | .writeBusBusy => 5
  | .writeTimeout => 6
  | .otherIgnored => 7
  | .badHeader => 8
  | .truncated => 9

/-- STATUS.HALTED (R35): 1 exactly when `fsm = HALTED`. -/
def State.haltedBit (s : State) : BitVec 1 :=
  match s.fsm with
  | .halted => 1
  | _ => 0

/-- The STATUS word of R35, from bit 31 down: 31:26 zero, SINK_READY, NET_READY, 23:20 zero,
LAST_EVENT, 15:12 zero, HALT_CAUSE, 7:4 zero, HALTED, FSM. -/
def State.status (s : State) : Word :=
  (0 : BitVec 6) ++ BitVec.ofBool s.env.sinkReady ++ BitVec.ofBool s.env.netReady ++
    (0 : BitVec 4) ++ s.lastEvent.code ++ (0 : BitVec 4) ++ s.haltCause.code ++
    (0 : BitVec 4) ++ s.haltedBit ++ s.fsm.code

end Sys2Proof.Machine
end

