-- ==== Sys2Proof/Machine/Registers.lean ====
section
/-!
DEFINITION. The host register space (10_state.md R33 to R42) and the host's reads and writes
(42_receive_loop_and_host.md R126 to R128).
-/

namespace Sys2Proof.Machine

/-- What a word offset of the register space names (R33). -/
inductive Reg where
  | ctrl
  | status
  | serClkHz
  | nodeIp
  | nodeMacHi
  | nodeMacLo
  | numPorts
  /-- Word `w` of SHORT_NAME: bytes 4w .. 4w+3. -/
  | shortName (w : Nat)
  /-- Word `w` of LONG_NAME: bytes 4w .. 4w+3. -/
  | longName (w : Nat)
  | cnt (c : Counter)
  | lastOpcode
  | lastOutUniverse
  | lastOutSeq
  | lastOutLen
  | unmapped
deriving DecidableEq, Repr

/-- The register map of R33. -/
def regMap : List (Nat × Reg) :=
  [(0x000, .ctrl), (0x004, .status), (0x008, .serClkHz), (0x00C, .nodeIp), (0x010, .nodeMacHi),
    (0x014, .nodeMacLo), (0x018, .numPorts)] ++
  (List.range 5).map (fun w => (0x040 + 4 * w, .shortName w)) ++
  (List.range 16).map (fun w => (0x080 + 4 * w, .longName w)) ++
  [(0x100, .cnt .rx), (0x104, .cnt .badHeader), (0x108, .cnt .truncated), (0x10C, .cnt .poll),
    (0x110, .cnt .pollReply), (0x114, .cnt .output), (0x118, .cnt .other), (0x11C, .cnt .writeOk),
    (0x120, .cnt .busBusy), (0x124, .cnt .timeout), (0x128, .cnt .replySent),
    (0x12C, .cnt .replyFail), (0x140, .lastOpcode), (0x144, .lastOutUniverse), (0x148, .lastOutSeq),
    (0x14C, .lastOutLen)]

/-- What an offset names (R33); every other offset is unmapped (R128). -/
def regAt (off : Nat) : Reg := (regMap.lookup off).getD .unmapped

/-- Byte `k` of a name; past its end, the reserved bits, which read 0 (R40). -/
def nameByte {n : Nat} (v : Vector Byte n) (k : Nat) : Byte := v.toList.getD k 0

/-- Word `w` of a name: byte 4w in bits 7:0 (R40). -/
def nameWord {n : Nat} (v : Vector Byte n) (w : Nat) : Word :=
  nameByte v (4 * w + 3) ++ nameByte v (4 * w + 2) ++ nameByte v (4 * w + 1) ++ nameByte v (4 * w)

/-- A name with word `w` written; bits past the name's end are reserved and not stored (R40). -/
def setNameWord {n : Nat} (v : Vector Byte n) (w : Nat) (x : Word) : Vector Byte n :=
  Vector.ofFn fun k => if k.val / 4 = w then x.extractLsb' (8 * (k.val % 4)) 8 else v[k]

/-- The value a read of a register returns, reserved bits 0 (R34 to R42, R126). -/
def State.readReg (s : State) : Reg → Word
  | .ctrl => 0
  | .status => s.status
  | .serClkHz => s.cfg.serClkHz
  | .nodeIp => s.cfg.nodeIp
  | .nodeMacHi => s.cfg.nodeMacHi
  | .nodeMacLo => s.cfg.nodeMacLo ++ (0 : Half)
  | .numPorts => s.cfg.numPorts.setWidth 32
  | .shortName w => nameWord s.cfg.shortName w
  | .longName w => nameWord s.cfg.longName w
  | .cnt c => s.cnt.get c
  | .lastOpcode => s.lastOpcode.setWidth 32
  | .lastOutUniverse => s.lastOutUniverse.setWidth 32
  | .lastOutSeq => s.lastOutSeq.setWidth 32
  | .lastOutLen => s.lastOutLen.setWidth 32
  | .unmapped => 0

/-- The configuration after a write to a register's defined bits; registers that are not RW-cfg keep
everything (R33, R127). -/
def NodeCfg.write (c : NodeCfg) (v : Word) : Reg → NodeCfg
  | .serClkHz => { c with serClkHz := v }
  | .nodeIp => { c with nodeIp := v }
  | .nodeMacHi => { c with nodeMacHi := v }
  | .nodeMacLo => { c with nodeMacLo := v.extractLsb' 16 16 }
  | .numPorts => { c with numPorts := v.extractLsb' 0 16 }
  | .shortName w => { c with shortName := setNameWord c.shortName w v }
  | .longName w => { c with longName := setNameWord c.longName w v }
  | .ctrl | .status | .cnt _ | .lastOpcode | .lastOutUniverse | .lastOutSeq | .lastOutLen
  | .unmapped => c

/-- A write of a register (R127): only in CONFIG has it an effect, the START bit of CTRL (R117) or a
configuration register's new value. -/
def State.writeReg (s : State) (r : Reg) (v : Word) : State :=
  if s.fsm = .config then
    if r = .ctrl then (if v.getLsbD 0 then s.goto .starting else s)
    else { s with cfg := s.cfg.write v r }
  else s

/-- Whether an access is inside the interface: 32 bits wide, at a multiple of 4, at most 0x1FF
(20_memory.md R59; R128). -/
def accessOk (off bytes : Nat) : Bool := bytes == 4 && off % 4 == 0 && decide (off ≤ 0x1FF)

/-- A host access (R126, R127). A read changes nothing of the block: its value goes to the host. -/
def hostAccess (op : HostOp) (s : State) : Host.Outcome State Fault Refusal :=
  match op with
  | .read off bytes =>
    if accessOk off bytes then .next { s with env := { s.env with rdata := s.readReg (regAt off) } }
    else .refused .hostAccess
  | .write off bytes v =>
    if accessOk off bytes then .next (s.writeReg (regAt off) v) else .refused .hostAccess

end Sys2Proof.Machine
end

