-- ==== Sys2Proof/Machine/Operands.lean ====
section
/-!
DEFINITION. The operands the commands take: the channel data in the datagram latch (20_memory.md
R54), the reply's destination (41_command_execution.md R104), and the bytes of a word in transmission
order (20_memory.md R55).
-/

namespace Sys2Proof.Machine

/-- The channel data of an Output: `rx_buf[18 .. 18 + data_len)` (10_state.md R31, R54). -/
def State.channelData (s : State) (n : BitVec 10) : Option (List Byte) := s.memRead 18 n.toNat

/-- `reply_dst` of R104: the requester when its address is present, else a broadcast on the receive
port. -/
def replyDst : Option Endpoint → Endpoint
  | some e => e
  | .none => ⟨Config.bcastAddr, Config.artPort⟩

/-- The four octets of a word, the one in bits 31:24 first (R55). -/
def wordOctets (w : Word) : List Byte :=
  [w.extractLsb' 24 8, w.extractLsb' 16 8, w.extractLsb' 8 8, w.extractLsb' 0 8]

/-- The two octets of a 16-bit value, the one in bits 15:8 first. -/
def halfOctets (h : Half) : List Byte := [h.extractLsb' 8 8, h.extractLsb' 0 8]

/-- The two octets of a 16-bit value, the one in bits 7:0 first. -/
def halfOctetsLe (h : Half) : List Byte := [h.extractLsb' 0 8, h.extractLsb' 8 8]

end Sys2Proof.Machine
end

