-- ==== Sys2Proof/Machine/Responder.lean ====
section
/-!
DEFINITION. The Discovery Responder (41_command_execution.md R102 to R104): the reply's bytes and the
meaning of OpPoll.
-/

namespace Sys2Proof.Machine

/-- `n` zero bytes (`rep(n, 0x00)` of 00_scope.md R12). -/
def zeros (n : Nat) : List Byte := List.replicate n 0

/-- The four PortTypes bytes (30_encoding.md R88): 0x80 for the first `min(NUM_PORTS, 4)` ports. -/
def portTypes (numPorts : Half) : List Byte :=
  (List.range 4).map fun i => if i < min numPorts.toNat 4 then 0x80 else 0x00

/-- `build_reply()` of R103: the 239-byte ArtPollReply of 30_encoding.md R88, filled from the
configuration registers. -/
def buildReply (c : NodeCfg) : List Byte :=
  -- offsets 0..15: ID, OpCode, IP Address, Port
  artNetId ++ halfOctetsLe 0x2100 ++ wordOctets c.nodeIp ++ halfOctetsLe Config.artPort ++
  -- 16..25: VersInfo, NetSwitch, SubSwitch, Oem, UbeaVersion, Status1, EstaMan
  zeros 10 ++
  -- 26..43 ShortName, 44..107 LongName, 108..171 NodeReport
  c.shortName.toList ++ c.longName.toList ++ zeros 64 ++
  -- 172..173 NumPorts, 174..177 PortTypes
  halfOctets c.numPorts ++ portTypes c.numPorts ++
  -- 178..200: GoodInput, GoodOutput, SwIn, SwOut, SwVideo, SwMacro, SwRemote, Spare, Style
  zeros 23 ++
  -- 201..206 MAC
  wordOctets c.nodeMacHi ++ halfOctets c.nodeMacLo ++
  -- 207..238: BindIp, BindIndex, Status2, Filler
  zeros 32

/-- The counter a `Send` answer counts (R102). -/
def sendCounter : SendAnswer → Counter
  | .ok => .replySent
  | .fail => .replyFail

/-- The event code a `Send` answer leaves (R102). -/
def sendEvent : SendAnswer → Event
  | .ok => .pollReplied
  | .fail => .pollReplyFailed

/-- Execution of Poll (R102): one `Send` of the reply, its answer recorded and counted, the edge to
IDLE. Flags and DiagPriority change nothing. -/
def execOpPoll (_flags _diag : Byte) (s : State) : Host.Outcome State Fault Refusal :=
  .next (((s.send (replyDst s.rxSrc) (buildReply s.cfg)).count (sendCounter s.sendAnswer)).finish
    (sendEvent s.sendAnswer))

end Sys2Proof.Machine
end

