-- ==== Sys2Proof/Machine/Agents.lean ====
section
/-!
DEFINITION. The moves of the outside agents between two steps of the block (60_exceptions.md R144):
host accesses, reset (70_reset_and_hazards.md R148 to R150), the inputs, the network's arrivals.
-/

namespace Sys2Proof.Machine

/-- Reset (R148, R149): every element of the block's state at its reset value. The build stays, and so
does what belongs to the environment: the inputs (10_state.md R43), the receive queue (R150), the
bytes already on the line. -/
def State.applyReset (s : State) : State := { State.reset with build := s.build, env := s.env }

/-- What the environment keeps of a step that a reset interrupts (R150, assumption log 9). -/
def interruptedEnv (carried : List Byte) (done : Bool) (s : State) : Env :=
  match s.fsm with
  | .receiving => if done then s.env.afterRecv else s.env
  | .dispatching =>
    match s.cmd with
    | .opPoll _ _ =>
      if done then { s.env with sent := s.env.sent ++ [(replyDst s.rxSrc, buildReply s.cfg)] }
      else s.env
    | .opOutput _ _ _ => { s.env with line := s.env.line ++ carried }
    | .opPollReply => s.env
    | .other _ => s.env
  | .config => s.env
  | .starting => s.env
  | .idle => s.env
  | .decoding => s.env
  | .halted => s.env

/-- What the history holds after a reset that interrupts a step: nothing (R149), or, where it interrupts
a `Send`, perhaps that `Send`'s entry (93 U23, assumption log 9). -/
def interruptedHist (entry : Option SendAnswer) (s : State) : List HistEntry :=
  if s.fsm = .dispatching then
    match s.cmd with
    | .opPoll _ _ => entry.toList.map (.reply (replyDst s.rxSrc) (buildReply s.cfg))
    | .opPollReply => []
    | .opOutput _ _ _ => []
    | .other _ => []
  else []

/-- Reset in the middle of a step (R148, R150): the block is reset, and what the interrupted step left of
its effect is the environment's and the history's. -/
def State.applyResetMid (carried : List Byte) (done : Bool) (entry : Option SendAnswer) (s : State) :
    State :=
  { { s with env := interruptedEnv carried done s }.applyReset with hist := interruptedHist entry s }

/-- A datagram arrives (10_state.md R45): queued, or dropped when the queue is full. -/
def arrive (d : Datagram) (s : State) : State :=
  if s.env.rxq.length < s.build.rxqDepth then
    { s with env := { s.env with rxq := s.env.rxq ++ [d] } }
  else s

/-- An agent's move. The block's own turn does nothing when the FSM has no step. -/
def agentMove (m : Move) (s : State) : Host.Outcome State Fault Refusal :=
  match m with
  | .block => .next s
  | .host op => hostAccess op s
  | .reset => .next s.applyReset
  | .resetMid carried done entry => .next (s.applyResetMid carried done entry)
  | .setNetReady b => .next { s with env := { s.env with netReady := b } }
  | .setSinkReady b => .next { s with env := { s.env with sinkReady := b } }
  | .arrive d => .next (arrive d s)
  | .signalRxFatal => .next { s with env := { s.env with rxFatal := true } }

/-- The state with the moves still to come. -/
def State.withAgenda (ms : List Move) (s : State) : State :=
  { s with env := { s.env with agenda := ms } }

end Sys2Proof.Machine
end

