-- ==== Sys2Proof/Machine/Ignored.lean ====
section
/-!
DEFINITION. The commands the router ignores (41_command_execution.md R105, R114): they leave an event
code and the edge to IDLE, and no history entry.
-/

namespace Sys2Proof.Machine

/-- Execution of PollReply (R105). -/
def execOpPollReply (s : State) : Host.Outcome State Fault Refusal :=
  .next (s.finish .pollReplyIgnored)

/-- Execution of Other (R114). -/
def execOther (_opcode : Half) (s : State) : Host.Outcome State Fault Refusal :=
  .next (s.finish .otherIgnored)

end Sys2Proof.Machine
end

