-- ==== Sys2Proof/Machine/Strip.lean ====
section
/-!
DEFINITION. The Strip Writer (41_command_execution.md R106 to R113): the frame's encoding
(30_encoding.md R89 to R91), the order of its bits on the line, and the meaning of OpOutput.
-/

namespace Sys2Proof.Machine

/-- The encoding mode a configuration code names (00_scope.md R9); any other code is refused. -/
def encModeOfCode : Nat → Option EncMode
  | 0 => some .direct
  | 1 => some .ws2812Spi4
  | _ => none

/-- The four line bits of a channel bit (R91): 0b1000 for 0, 0b1110 for 1. -/
def bitPattern : Bool → BitVec 4
  | false => 0x8
  | true => 0xE

/-- The line byte of two channel bits, bits `k + 1` and `k` of a channel byte (R91). -/
def pairPattern (b : Byte) (k : Nat) : Byte :=
  bitPattern (b.getLsbD (k + 1)) ++ bitPattern (b.getLsbD k)

/-- `enc(b)`: the line bytes of a channel byte (R90, R91). -/
def encByte : EncMode → Byte → List Byte
  | .direct, b => [b]
  | .ws2812Spi4, b => [pairPattern b 6, pairPattern b 4, pairPattern b 2, pairPattern b 0]

/-- `frame(data)` of R89: the encoded channels in order, then the trailer of zero bytes. -/
def frameOf (mode : EncMode) (trailer : Nat) (data : List Byte) : List Byte :=
  data.flatMap (encByte mode) ++ List.replicate trailer 0

/-- The bits of bytes on the serial line, each byte most significant bit first (20_memory.md R56). -/
def serialBits (bs : List Byte) : List Bool :=
  bs.flatMap fun b => (List.range 8).map fun j => b.getLsbD (7 - j)

/-- The line's level between frames: low (R113). -/
def lineIdleLevel : Bool := false

/-- How many bit periods a frame lasts on the line (R113, informational). -/
def frameBitPeriods (frame : List Byte) : Nat := 8 * frame.length

/-- How many seconds a frame lasts on the line at `SER_CLK_HZ = hz` (R113, R161, informational; assumption
log 14). -/
def frameSeconds (frame : List Byte) (hz : Word) : ℚ := frameBitPeriods frame / hz.toNat

/-- The counter a frame write's result counts (R106). -/
def writeCounter : WriteResult → Counter
  | .ok => .writeOk
  | .busBusy => .busBusy
  | .timeout => .timeout

/-- The event code a frame write's result leaves (R106). -/
def writeEvent : WriteResult → Event
  | .ok => .outputWritten
  | .busBusy => .writeBusBusy
  | .timeout => .writeTimeout

/-- Execution of Output (R106): one `Transmit` of the frame of the channel data, its answer recorded
and counted, the edge to IDLE. Universe and sequence change nothing (R110). Stops only where the
channel data has no value in the datagram latch (93 U13, U14). -/
def execOpOutput (_seq : Byte) (_uni : Half) (dataLen : BitVec 10) (s : State) :
    Host.Outcome State Fault Refusal :=
  match s.channelData dataLen with
  | .none => .fault .latchRead
  | some data =>
    .next (((s.transmit (frameOf s.build.encMode s.build.trailerLen data)).count
      (writeCounter (writeResult s.transmitAnswer))).finish (writeEvent (writeResult s.transmitAnswer)))

end Sys2Proof.Machine
end

