-- ==== Sys2Proof/Machine/Dispatch.lean ====
section
/-!
DEFINITION. The Command Router (41_command_execution.md R101): one branch for each command.
-/

namespace Sys2Proof.Machine

def exec (i : Instr) (s : State) : Host.Outcome State Fault Refusal :=
  match i with
  | .opPoll flags diag => Sys2Proof.Machine.execOpPoll flags diag s
  | .opPollReply => Sys2Proof.Machine.execOpPollReply s
  | .opOutput seq uni dataLen => Sys2Proof.Machine.execOpOutput seq uni dataLen s
  | .other opcode => Sys2Proof.Machine.execOther opcode s

end Sys2Proof.Machine
end

