-- ==== Sys2Proof/Machine/Step.lean ====
section
/-!
DEFINITION. One step of the machine: the next move of the outside agents, or the block's own step,
which in DISPATCHING is the router on the command latch (42_receive_loop_and_host.md R122).
-/

namespace Sys2Proof.Machine

/-- The step of the block's FSM (R115). -/
def blockStep (s : State) : Host.Outcome State Fault Refusal :=
  match s.fsm with
  | .config => configStep s
  | .starting => .next (startStep s)
  | .idle => idleStep s
  | .receiving => receiveStep s
  | .decoding => decodeStep s
  | .dispatching => exec s.cmd s
  | .halted => haltedStep s

/-- One step: the first move of the agenda where there is one (the block's turn is its step, if it has
one), else the block's step. -/
def step (s : State) : Host.Outcome State Fault Refusal :=
  match s.env.agenda with
  | [] => blockStep s
  | m :: ms =>
    if m = .block ∧ blockEnabled (s.withAgenda ms) = true then blockStep (s.withAgenda ms)
    else agentMove m (s.withAgenda ms)

/-- The state whose next step runs the command with the given table bits: the datagram in the datagram
latch, its command in the command latch, FSM in DISPATCHING, no move before it (assumption log 12). -/
def State.withFetchWord (s : State) (nbits w : Nat) : State := s.loadCommand (tableDatagram nbits w)

end Sys2Proof.Machine
end

