-- ==== Sys2Proof/Safety.lean ====
section
/-!
DEFINITION. What counts as a good state and a legal step, in the words the statements use. The header
check and the operand sums stand here a second time, on naturals as 40_packet_decoder.md R92 writes
them, so that a statement about the decoder does not quote the decoder.
-/

namespace Sys2Proof.Machine

/-- `u16be(buf, k)` as the natural of 00_scope.md R12. -/
def beAt (buf : List Byte) (k : Nat) : Nat :=
  256 * (buf.getD k 0).toNat + (buf.getD (k + 1) 0).toNat

/-- `u16le(buf, k)` as the natural of R12. -/
def leAt (buf : List Byte) (k : Nat) : Nat :=
  (buf.getD k 0).toNat + 256 * (buf.getD (k + 1) 0).toNat

/-- The header passes the check of R93. -/
def HeaderValid (vchk : Bool) (buf : List Byte) : Prop :=
  8 ≤ buf.length ∧ buf.take 8 = [0x41, 0x72, 0x74, 0x2D, 0x4E, 0x65, 0x74, 0x00] ∧
    12 ≤ buf.length ∧ (beAt buf 10 = 14 ∨ (leAt buf 8 = 0x2100 ∧ vchk = false))

/-- The block is about to take its DECODING step on the datagram `buf`. -/
def Decoding (s : State) (buf : List Byte) : Prop :=
  s.fsm = .decoding ∧ s.env.agenda = [] ∧ s.memRead 0 s.rxLen = some buf

/-- The state after `k` steps, if all of them give a next state. -/
def steps : Nat → State → Option State
  | 0, s => some s
  | k + 1, s =>
    match step s with
    | .next t => steps k t
    | .fault _ => none
    | .refused _ => none

/-- The edges the block's own steps take (42_receive_loop_and_host.md R115). -/
def Fsm.edge : Fsm → Fsm → Bool
  | .starting, .idle => true
  | .starting, .halted => true
  | .idle, .receiving => true
  | .receiving, .decoding => true
  | .receiving, .halted => true
  | .decoding, .idle => true
  | .decoding, .dispatching => true
  | .dispatching, .idle => true
  | _, _ => false

/-- The FSM state whose step counts a counter (60_exceptions.md R132). -/
def Counter.countedIn : Counter → Fsm
  | .rx => .receiving
  | .badHeader | .truncated | .poll | .pollReply | .output | .other => .decoding
  | .writeOk | .busBusy | .timeout | .replySent | .replyFail => .dispatching

/-- Whether the next move is a reset. -/
def resetNext (s : State) : Bool :=
  match s.env.agenda with
  | .reset :: _ => true
  | .resetMid _ _ _ :: _ => true
  | _ => false

/-- Whether the next move is the host's write of `v` to the register `r`. -/
def writesNext (s : State) (r : Reg) (v : Word) : Prop :=
  ∃ off ms, s.env.agenda = .host (.write off 4 v) :: ms ∧ accessOk off 4 = true ∧ regAt off = r

/-- The command in the latch is a Poll that is still to be dispatched. -/
def pollInFlight (s : State) : Bool :=
  match s.fsm, s.cmd with
  | .dispatching, .opPoll _ _ => true
  | _, _ => false

/-- The command in the latch is an Output that is still to be dispatched. -/
def outputInFlight (s : State) : Bool :=
  match s.fsm, s.cmd with
  | .dispatching, .opOutput _ _ _ => true
  | _, _ => false

/-- 1 where a condition holds. -/
def one (b : Bool) : Word := if b then 1 else 0

/-- The three sums of R132, modulo 2^32, carried through every FSM state: between RECEIVING and
DECODING one datagram is counted in CNT_RX only, between DECODING and DISPATCHING one Poll or Output
has no result yet. -/
def CounterLaw (s : State) : Prop :=
  s.cnt.rx = s.cnt.badHeader + s.cnt.truncated + s.cnt.poll + s.cnt.pollReply + s.cnt.output +
      s.cnt.other + one (decide (s.fsm = .decoding)) ∧
    s.cnt.poll = s.cnt.replySent + s.cnt.replyFail + one (pollInFlight s) ∧
    s.cnt.output = s.cnt.writeOk + s.cnt.busBusy + s.cnt.timeout + one (outputInFlight s)

/-- The counter that goes with a history entry (60_exceptions.md R130). -/
def HistEntry.counter : HistEntry → Option Counter
  | .reply _ _ .ok => some .replySent
  | .reply _ _ .fail => some .replyFail
  | .frame _ .ok _ => some .writeOk
  | .frame _ .busBusy _ => some .busBusy
  | .frame _ .timeout _ => some .timeout
  | .bind _ => none

/-- What the next step makes of the entries that the last reset left at the head of the history: a reset
between two steps leaves none (70_reset_and_hazards.md R149), a reset that interrupts a Send may leave
that Send's entry (93 U23), and every other step keeps them. -/
def keptNext (kept : List HistEntry) (s : State) : List HistEntry :=
  match s.env.agenda with
  | .reset :: _ => []
  | .resetMid _ _ (some r) :: _ =>
    if pollInFlight s then [.reply (replyDst s.rxSrc) (buildReply s.cfg) r] else []
  | .resetMid _ _ none :: _ => []
  | _ => kept

/-- The result counters count the history's entries since the last reset, modulo 2^32 (R130, R41); before
them stand the entries that reset left. -/
def HistoryLaw (kept : List HistEntry) (s : State) : Prop :=
  ∃ since, s.hist = kept ++ since ∧
    ∀ c ∈ [Counter.replySent, .replyFail, .writeOk, .busBusy, .timeout],
      s.cnt.get c = BitVec.ofNat 32 (since.countP fun e => e.counter == some c)

/-- The bytes of a history entry that reached the serial line (10_state.md R44). -/
def HistEntry.lineBytes : HistEntry → List Byte
  | .frame _ _ l => l
  | .reply _ _ _ => []
  | .bind _ => []

/-- Since the last reset the serial line carried the history's frames in order and nothing else
(41_command_execution.md R107, R112; 60_exceptions.md R144). -/
def LineLaw (s : State) : Prop :=
  ∃ before, s.env.line = before ++ s.hist.flatMap HistEntry.lineBytes

/-- A history entry of a `Transmit` answered `Ok` carried its frame (41_command_execution.md R106). -/
def HistEntry.honest : HistEntry → Prop
  | .frame f .ok l => l = f
  | .frame _ .busBusy _ => True
  | .frame _ .timeout _ => True
  | .reply _ _ _ => True
  | .bind _ => True

/-- The datagram latch is canonical, inside the buffer, and written below `rx_len` (10_state.md R29). -/
def LatchLaw (s : State) : Prop :=
  Memory.wf s.rxBuf ∧ (∀ c ∈ s.rxBuf, c.1 < s.build.rxCap) ∧ s.rxLen ≤ s.build.rxCap ∧
    ∀ a < s.rxLen, (Memory.read s.rxBuf a).isSome = true

/-- The command to be dispatched is the one the latched datagram decodes to (20_memory.md R71;
10_state.md R31, R42). -/
def CommandLaw (s : State) : Prop :=
  s.fsm = .dispatching →
    ∃ buf, s.memRead 0 s.rxLen = some buf ∧ decode s.build.vchkPollReply buf = .ok s.cmd ∧
      s.lastOpcode = s.cmd.opcode

/-- HALT_CAUSE is NONE exactly while the FSM is not HALTED (60_exceptions.md R131). -/
def HaltLaw (s : State) : Prop := s.haltCause = .none ↔ s.fsm ≠ .halted

/-- Before the startup step nothing was counted or shown, and nothing recorded but what the last reset left
(42_receive_loop_and_host.md R116). -/
def FreshLaw (kept : List HistEntry) (s : State) : Prop :=
  s.fsm = .config ∨ s.fsm = .starting →
    s.cnt = {} ∧ s.lastEvent = .none ∧ s.lastOpcode = 0 ∧ s.lastOutUniverse = 0 ∧ s.lastOutSeq = 0 ∧
      s.lastOutLen = 0 ∧ s.hist = kept

/-- In RECEIVING the collaborator has something to answer: `IDLE` stays the only state in which the block
waits for the network (42_receive_loop_and_host.md R119). -/
def PendingLaw (s : State) : Prop := s.fsm = .receiving → s.env.rxFatal = true ∨ s.env.rxq ≠ []

/-- What every reachable state has and the datagram's steps rely on. -/
def Good (s : State) : Prop := LatchLaw s ∧ CommandLaw s ∧ PendingLaw s

/-- The states R125 ends a run at: HALTED, CONFIG, and IDLE with nothing pending. -/
def AtRunEnd (s : State) : Prop :=
  s.fsm = .halted ∨ s.fsm = .config ∨ (s.fsm = .idle ∧ s.env.rxFatal = false ∧ s.env.rxq = [])

/-- Whether a register is RW-cfg in the map of 10_state.md R33. -/
def Reg.isCfg : Reg → Bool
  | .serClkHz | .nodeIp | .nodeMacHi | .nodeMacLo | .numPorts => true
  | .shortName _ | .longName _ => true
  | .ctrl | .status | .cnt _ | .lastOpcode | .lastOutUniverse | .lastOutSeq | .lastOutLen => false
  | .unmapped => false

end Sys2Proof.Machine
end

