-- ==== Sys2Proof/Certificates/Slice0/Obligations.lean ====
section
/-!
DEFINITION. The statements for the provers. Each docstring names the rule of spec/ it formalises. A
statement about a step of the block takes an empty agenda: the block's turn, no other agent's move
before it. Every equation `… = .next { s with … }` is also the frame: whatever the braces do not
name (every byte of the datagram latch, every register, counter and input) is unchanged.
-/

open Sys2Proof Sys2Proof.Machine

/-! ### Decoding and encoding -/

/-- Datagrams written out byte by byte from 30_encoding.md (vectors V-D2, V-R1, V-O9, V-X2, V-S4, V-O8
of 95_test_vectors.md) decode to the commands and errors they stand for. -/
def Obligations.SpecDatagramsDecode : Prop :=
  decode true [0x41, 0x72, 0x74, 0x2D, 0x4E, 0x65, 0x74, 0, 0x00, 0x20, 0, 0x0E, 0x02, 0x10] =
      .ok (.opPoll 0x02 0x10) ∧
    decode true [0x41, 0x72, 0x74, 0x2D, 0x4E, 0x65, 0x74, 0, 0x00, 0x21, 0, 0x0E] = .ok .opPollReply ∧
    decode true [0x41, 0x72, 0x74, 0x2D, 0x4E, 0x65, 0x74, 0, 0x00, 0x50, 0, 0x0E, 0x2A, 0x99, 0x34, 0x12,
      0, 1, 0x10] = .ok (.opOutput 0x2A 0x1234 1) ∧
    decode true [0x41, 0x72, 0x74, 0x2D, 0x4E, 0x65, 0x74, 0, 0x50, 0x00, 0, 0x0E] =
      .ok (.other 0x0050) ∧
    decode true [0x41, 0x72, 0x74, 0x2D, 0x4E, 0x65, 0x74, 0x58, 0x00, 0x50] = .err .badHeader ∧
    decode true [0x41, 0x72, 0x74, 0x2D, 0x4E, 0x65, 0x74, 0, 0x00, 0x50, 0, 0x0E, 0, 0, 0, 0, 0, 6, 1, 2] =
      .err .truncated

/-- Decode and encode agree: the datagram of a well-formed command, with any Physical byte, any channel
data of its length and any bytes after it, decodes to that command, whatever VCHK_POLLREPLY is. -/
def Obligations.EncodedCommandDecodesToItself : Prop :=
  ∀ (i : Instr) (vchk : Bool) (phys : Byte) (data rest : List Byte),
    i.wf = true → data.length = i.channels →
      decode vchk (encodeWith phys data i ++ rest) = .ok i

/-- The other direction: a datagram that decodes (version checked) is the datagram of a well-formed
command, but for bytes the format ignores: an accepted datagram has one meaning and hides nothing. -/
def Obligations.AcceptedDatagramIsAnEncoding : Prop :=
  ∀ (buf : List Byte) (i : Instr), decode true buf = .ok i →
    i.wf = true ∧ i.minLength ≤ buf.length ∧
      ∃ phys data rest, data.length = i.channels ∧ buf = encodeWith phys data i ++ rest

/-- Every 16-bit opcode, with the header around it and zero operands, decodes to its row of the opcode
map (30_encoding.md R83), and the step at the state that holds it runs exactly that command. How the
table's bits become a datagram is the model's form (log 12). -/
def Obligations.EveryOpcodeWordRunsItsRow : Prop :=
  ∀ (w : Nat) (s : State), w < 65536 → 18 ≤ s.build.rxCap →
    let i : Instr :=
      if w = 0x2000 then .opPoll 0 0
      else if w = 0x2100 then .opPollReply
      else if w = 0x5000 then .opOutput 0 0 0
      else .other (BitVec.ofNat 16 w)
    decodeTableWord 16 w = some i ∧ (s.withFetchWord 16 w).cmd = i ∧
      step (s.withFetchWord 16 w) = exec i (s.withFetchWord 16 w)

/-! ### The DECODING step -/

/-- R93: the header check comes first, and a datagram that fails it is dropped: BadHeader is counted
and shown, and the block is IDLE again. -/
def Obligations.BadHeaderDatagramIsDropped : Prop :=
  ∀ (s : State) (buf : List Byte), Decoding s buf →
    (¬ HeaderValid s.build.vchkPollReply buf →
      decode s.build.vchkPollReply buf = .err .badHeader ∧
        step s = .next { s with
          cnt := { s.cnt with badHeader := s.cnt.badHeader + 1 }
          lastEvent := .badHeader
          fsm := .idle }) ∧
    (HeaderValid s.build.vchkPollReply buf →
      decode s.build.vchkPollReply buf ≠ .err .badHeader)

/-- R94: a Poll of at least 14 bytes decodes to its Flags and DiagPriority, whatever follows them; a
shorter one is Truncated. -/
def Obligations.PollDatagramDecodes : Prop :=
  ∀ (s : State) (buf : List Byte), Decoding s buf → HeaderValid s.build.vchkPollReply buf →
    leAt buf 8 = 0x2000 →
    (buf.length < 14 →
      decode s.build.vchkPollReply buf = .err .truncated ∧
        step s = .next { s with
          lastOpcode := 0x2000
          cnt := { s.cnt with truncated := s.cnt.truncated + 1 }
          lastEvent := .truncated
          fsm := .idle }) ∧
    (14 ≤ buf.length →
      decode s.build.vchkPollReply buf = .ok (.opPoll (buf.getD 12 0) (buf.getD 13 0)) ∧
        step s = .next { s with
          cmd := .opPoll (buf.getD 12 0) (buf.getD 13 0)
          lastOpcode := 0x2000
          cnt := { s.cnt with poll := s.cnt.poll + 1 }
          fsm := .dispatching })

/-- R95: a PollReply whose header passes decodes, whatever its length and body. -/
def Obligations.PollReplyDatagramDecodes : Prop :=
  ∀ (s : State) (buf : List Byte), Decoding s buf → HeaderValid s.build.vchkPollReply buf →
    leAt buf 8 = 0x2100 →
    decode s.build.vchkPollReply buf = .ok .opPollReply ∧
      step s = .next { s with
        cmd := .opPollReply
        lastOpcode := 0x2100
        cnt := { s.cnt with pollReply := s.cnt.pollReply + 1 }
        fsm := .dispatching }

/-- R97: the length validation of an Output. It is Truncated exactly when the datagram ends before the
length field, declares over 512 channels, or ends before its channel data. -/
def Obligations.OutputLengthIsValidated : Prop :=
  ∀ (s : State) (buf : List Byte), Decoding s buf → HeaderValid s.build.vchkPollReply buf →
    leAt buf 8 = 0x5000 →
    (buf.length < 18 ∨ 512 < beAt buf 16 ∨ buf.length < 18 + beAt buf 16 →
      decode s.build.vchkPollReply buf = .err .truncated ∧
        step s = .next { s with
          lastOpcode := 0x5000
          cnt := { s.cnt with truncated := s.cnt.truncated + 1 }
          lastEvent := .truncated
          fsm := .idle }) ∧
    (18 ≤ buf.length → beAt buf 16 ≤ 512 → 18 + beAt buf 16 ≤ buf.length →
      ∃ i, decode s.build.vchkPollReply buf = .ok i)

/-- R96: an accepted Output decodes to its sequence number, universe and length, shows them in the
LAST_OUT registers, and its channel data in the latch is exactly the declared bytes of the datagram,
in order. -/
def Obligations.OutputDatagramDecodes : Prop :=
  ∀ (s : State) (buf : List Byte), Decoding s buf → HeaderValid s.build.vchkPollReply buf →
    leAt buf 8 = 0x5000 → 18 ≤ buf.length → beAt buf 16 ≤ 512 → 18 + beAt buf 16 ≤ buf.length →
    let seq : Byte := buf.getD 12 0
    let uni : Half := BitVec.ofNat 16 (256 * (buf.getD 15 0).toNat + (buf.getD 14 0).toNat)
    let len : BitVec 10 := BitVec.ofNat 10 (beAt buf 16)
    decode s.build.vchkPollReply buf = .ok (.opOutput seq uni len) ∧
      len.toNat = beAt buf 16 ∧
      step s = .next { s with
        cmd := .opOutput seq uni len
        lastOpcode := 0x5000
        cnt := { s.cnt with output := s.cnt.output + 1 }
        lastOutUniverse := uni
        lastOutSeq := seq
        lastOutLen := len
        fsm := .dispatching } ∧
      s.channelData len = some ((buf.drop 18).take (beAt buf 16))

/-- R98: every opcode but the three is Other, whatever the length and body. -/
def Obligations.OtherDatagramDecodes : Prop :=
  ∀ (s : State) (buf : List Byte), Decoding s buf → HeaderValid s.build.vchkPollReply buf →
    leAt buf 8 ≠ 0x2000 → leAt buf 8 ≠ 0x2100 → leAt buf 8 ≠ 0x5000 →
    decode s.build.vchkPollReply buf = .ok (.other (BitVec.ofNat 16 (leAt buf 8))) ∧
      step s = .next { s with
        cmd := .other (BitVec.ofNat 16 (leAt buf 8))
        lastOpcode := BitVec.ofNat 16 (leAt buf 8)
        cnt := { s.cnt with other := s.cnt.other + 1 }
        fsm := .dispatching }

/-- A step runs the decoded command. Where the latched datagram decodes to `i`, the DECODING step
latches it, and the step after it is `exec i` at that state; `step` adds nothing around `exec`. -/
def Obligations.StepRunsTheDecodedCommand : Prop :=
  (∀ (s : State) (buf : List Byte) (i : Instr), Decoding s buf →
    decode s.build.vchkPollReply buf = .ok i →
    ∃ t, step s = .next t ∧ t.fsm = .dispatching ∧ t.cmd = i ∧ t.rxBuf = s.rxBuf ∧
      t.rxLen = s.rxLen ∧ t.rxSrc = s.rxSrc ∧ t.cfg = s.cfg ∧ t.hist = s.hist ∧ t.env = s.env ∧
      step t = exec i t) ∧
  (∀ s : State, s.fsm = .dispatching → s.env.agenda = [] → step s = exec s.cmd s)

/-! ### The commands -/

/-- R102: a Poll sends exactly one reply, to `replyDst` with the bytes of `buildReply`, whatever its
flags; the network's answer decides the counter and the event code; the block is IDLE again. That the
endpoint space gains the reply only on Ok is the model's inference (log 10). -/
def Obligations.PollSendsOneReply : Prop :=
  ∀ (flags diag : Byte) (s : State),
    exec (.opPoll flags diag) s = .next { s with
      hist := s.hist ++ [.reply (replyDst s.rxSrc) (buildReply s.cfg) s.sendAnswer]
      cnt :=
        if s.sendAnswer = .ok then { s.cnt with replySent := s.cnt.replySent + 1 }
        else { s.cnt with replyFail := s.cnt.replyFail + 1 }
      lastEvent := if s.sendAnswer = .ok then .pollReplied else .pollReplyFailed
      fsm := .idle
      env := { s.env with
        sent := s.env.sent ++
          (if s.sendAnswer = .ok then [(replyDst s.rxSrc, buildReply s.cfg)] else [])
        sendAns := s.env.sendAns.tail
        draws := s.env.draws + 1 } }

/-- R104: the reply goes to the requester's address and port when present, else it is broadcast on the
receive port. -/
def Obligations.ReplyGoesToRequesterOrBroadcast : Prop :=
  (∀ e : Endpoint, replyDst (some e) = e) ∧ replyDst none = ⟨0xFFFFFFFF, 6454⟩

/-- R88: the reply's 239 bytes, field by field. -/
def Obligations.ReplyHasTheArtPollReplyLayout : Prop :=
  ∀ c : NodeCfg,
    (buildReply c).length = 239 ∧
    (buildReply c).take 8 = [0x41, 0x72, 0x74, 0x2D, 0x4E, 0x65, 0x74, 0x00] ∧
    ((buildReply c).drop 8).take 2 = [0x00, 0x21] ∧
    ((buildReply c).drop 10).take 4 =
      [c.nodeIp.extractLsb' 24 8, c.nodeIp.extractLsb' 16 8, c.nodeIp.extractLsb' 8 8,
        c.nodeIp.extractLsb' 0 8] ∧
    ((buildReply c).drop 14).take 2 = [0x36, 0x19] ∧
    ((buildReply c).drop 16).take 10 = List.replicate 10 0 ∧
    ((buildReply c).drop 26).take 18 = c.shortName.toList ∧
    ((buildReply c).drop 44).take 64 = c.longName.toList ∧
    ((buildReply c).drop 108).take 64 = List.replicate 64 0 ∧
    ((buildReply c).drop 172).take 2 = [c.numPorts.extractLsb' 8 8, c.numPorts.extractLsb' 0 8] ∧
    (∀ i < 4, (buildReply c)[174 + i]? = some (if i < c.numPorts.toNat then 0x80 else 0x00)) ∧
    ((buildReply c).drop 178).take 23 = List.replicate 23 0 ∧
    ((buildReply c).drop 201).take 6 =
      [c.nodeMacHi.extractLsb' 24 8, c.nodeMacHi.extractLsb' 16 8, c.nodeMacHi.extractLsb' 8 8,
        c.nodeMacHi.extractLsb' 0 8, c.nodeMacLo.extractLsb' 8 8, c.nodeMacLo.extractLsb' 0 8] ∧
    ((buildReply c).drop 207).take 32 = List.replicate 32 0

/-- R105: a PollReply changes the event code and returns to IDLE, and nothing else. -/
def Obligations.PollReplyIsIgnored : Prop :=
  ∀ s : State, exec .opPollReply s = .next { s with lastEvent := .pollReplyIgnored, fsm := .idle }

/-- R114: any other opcode changes the event code and returns to IDLE, and nothing else. -/
def Obligations.OtherIsIgnored : Prop :=
  ∀ (op : Half) (s : State),
    exec (.other op) s = .next { s with lastEvent := .otherIgnored, fsm := .idle }

/-- R106: an Output whose channel data lies in the datagram latch asks for exactly one frame, that of
the data at offsets 18 .. 18+data_len, of every length zero included; the sink's answer decides the
counter, the event code and the bytes on the line; the block is IDLE again. -/
def Obligations.OutputWritesOneFrame : Prop :=
  ∀ (seq : Byte) (uni : Half) (n : BitVec 10) (s : State),
    Memory.wf s.rxBuf → 18 + n.toNat ≤ s.rxLen →
    (∀ k < n.toNat, (Memory.read s.rxBuf (18 + k)).isSome = true) →
    ∃ data, data.length = n.toNat ∧
      (∀ k < n.toNat, Memory.read s.rxBuf (18 + k) = data[k]?) ∧
      exec (.opOutput seq uni n) s = .next { s with
        hist := s.hist ++
          [.frame (frameOf s.build.encMode s.build.trailerLen data)
            (match s.transmitAnswer with
              | .ok => .ok
              | .busBusy _ => .busBusy
              | .timeout _ => .timeout)
            (match s.transmitAnswer with
              | .ok => frameOf s.build.encMode s.build.trailerLen data
              | .busBusy l => l
              | .timeout l => l)]
        cnt :=
          (match s.transmitAnswer with
            | .ok => { s.cnt with writeOk := s.cnt.writeOk + 1 }
            | .busBusy _ => { s.cnt with busBusy := s.cnt.busBusy + 1 }
            | .timeout _ => { s.cnt with timeout := s.cnt.timeout + 1 })
        lastEvent :=
          (match s.transmitAnswer with
            | .ok => .outputWritten
            | .busBusy _ => .writeBusBusy
            | .timeout _ => .writeTimeout)
        fsm := .idle
        env := { s.env with
          line := s.env.line ++
            (match s.transmitAnswer with
              | .ok => frameOf s.build.encMode s.build.trailerLen data
              | .busBusy l => l
              | .timeout l => l)
          txAns := s.env.txAns.tail
          draws := s.env.draws + 1 } }

/-- The model's choice (93 U14): an Output whose channel data reaches past `rx_len` stops by name; the
spec says that no rule makes such a read. -/
def Obligations.OutputPastTheDatagramStops : Prop :=
  ∀ (seq : Byte) (uni : Half) (n : BitVec 10) (s : State), s.rxLen < 18 + n.toNat →
    exec (.opOutput seq uni n) s = .fault .latchRead

/-- R90 with R89: in DIRECT mode the frame is the channel data, then the trailer of zero bytes. -/
def Obligations.DirectFrameIsTheChannelData : Prop :=
  ∀ (t : Nat) (data : List Byte),
    frameOf .direct t data = data ++ List.replicate t 0 ∧
      (frameOf .direct t data).length = data.length + t

/-- R91 with R89: in WS2812_SPI4 mode channel `k` becomes line bytes 4k .. 4k+3, each of two channel
bits from the most significant down, 0b1110 for a one and 0b1000 for a zero; then the trailer. -/
def Obligations.SpiFrameHasFourLineBytesPerChannel : Prop :=
  ∀ (t : Nat) (data : List Byte),
    (frameOf .ws2812Spi4 t data).length = 4 * data.length + t ∧
    (∀ k j, k < data.length → j < 4 →
      (frameOf .ws2812Spi4 t data)[4 * k + j]? = some
        (((if (data.getD k 0).getLsbD (7 - 2 * j) then (0xE : BitVec 8) else 0x8) <<< 4) |||
          (if (data.getD k 0).getLsbD (6 - 2 * j) then (0xE : BitVec 8) else 0x8))) ∧
    (∀ j < t, (frameOf .ws2812Spi4 t data)[4 * data.length + j]? = some 0)

/-- R56: on the serial line bit `8k + j` is bit `7 - j` of byte `k`: most significant bit first. -/
def Obligations.LineCarriesMostSignificantBitFirst : Prop :=
  ∀ (bs : List Byte) (k j : Nat), k < bs.length → j < 8 →
    (serialBits bs)[8 * k + j]? = some ((bs.getD k 0).getLsbD (7 - j)) ∧
      (serialBits bs).length = frameBitPeriods bs

/-- R109, with R110: universe and sequence number are used for nothing, and Outputs with the same
channel data and length, under the same ENC_MODE and TRAILER_LEN, ask for the same frame, in any two
states; the line carries the same bytes where the sink answers Ok both times. -/
def Obligations.FrameDependsOnChannelDataOnly : Prop :=
  ∀ (seq seq' : Byte) (uni uni' : Half) (n : BitVec 10) (s s' t t' : State),
    s'.build.encMode = s.build.encMode → s'.build.trailerLen = s.build.trailerLen →
    s'.channelData n = s.channelData n →
    exec (.opOutput seq uni n) s = .next t → exec (.opOutput seq' uni' n) s' = .next t' →
    ∃ f r l r' l', t.hist = s.hist ++ [.frame f r l] ∧ t'.hist = s'.hist ++ [.frame f r' l'] ∧
      (r = .ok → r' = .ok → l' = l)

/-- The frame of every command: no command writes the latches, the configuration, the LAST registers,
the halt code, the inputs, the receive queue or the host's side; every byte of the datagram latch
reads as before; only the result counters may change. -/
def Obligations.CommandsLeaveTheRestUnchanged : Prop :=
  ∀ (i : Instr) (s t : State), exec i s = .next t →
    (∀ a, Memory.read t.rxBuf a = Memory.read s.rxBuf a) ∧ t.rxLen = s.rxLen ∧ t.rxSrc = s.rxSrc ∧
    t.cmd = s.cmd ∧ t.cfg = s.cfg ∧ t.haltCause = s.haltCause ∧ t.lastOpcode = s.lastOpcode ∧
    t.lastOutUniverse = s.lastOutUniverse ∧ t.lastOutSeq = s.lastOutSeq ∧
    t.lastOutLen = s.lastOutLen ∧ t.build = s.build ∧
    t.env.netReady = s.env.netReady ∧ t.env.sinkReady = s.env.sinkReady ∧ t.env.rxq = s.env.rxq ∧
    t.env.rxFatal = s.env.rxFatal ∧ t.env.rdata = s.env.rdata ∧ t.env.agenda = s.env.agenda ∧
    t.fsm = .idle ∧
    (∀ c : Counter, c.countedIn ≠ .dispatching → t.cnt.get c = s.cnt.get c)

/-! ### The other steps of the block -/

/-- R118: the STARTING step checks net_ready, sink_ready and the clock in this order, halts at the
first failure without asking for a bind, else asks for one bind and records it. -/
def Obligations.StartupChecksInOrder : Prop :=
  ∀ s : State, s.fsm = .starting → s.env.agenda = [] →
    step s =
      if s.env.netReady = false then .next { s with haltCause := .notReadyNet, fsm := .halted }
      else if s.env.sinkReady = false then .next { s with haltCause := .notReadySink, fsm := .halted }
      else if clkOk s.build s.cfg.serClkHz = false then
        .next { s with haltCause := .clockInvalid, fsm := .halted }
      else
        .next { s with
          hist := s.hist ++ [.bind s.bindAnswer]
          haltCause := if s.bindAnswer = .failed then .bindFailed else s.haltCause
          fsm := if s.bindAnswer = .failed then .halted else .idle
          env := { s.env with
            bindAns := s.env.bindAns.tail
            draws := s.env.draws + 1 } }

/-- R8: CLK_OK rejects 0 in every build, and accepts any other frequency exactly when a range of the
build holds it. That CLK_OK is given by ranges is the model's form of the OPEN parameter (log 4). -/
def Obligations.ClockZeroIsRejected : Prop :=
  ∀ b : Build, clkOk b 0 = false ∧
    ∀ hz : Word, hz ≠ 0 → (clkOk b hz = true ↔ ∃ r ∈ b.clkRanges, r.1 ≤ hz ∧ hz ≤ r.2)

/-- R119: IDLE moves to RECEIVING when a datagram or a fatal condition is pending, with no other
effect; with nothing pending the block has no step, which the model says by a named fault (log 13). -/
def Obligations.IdleWaitsForADatagram : Prop :=
  ∀ s : State, s.fsm = .idle → s.env.agenda = [] →
    (s.env.rxFatal = true ∨ s.env.rxq ≠ [] → step s = .next { s with fsm := .receiving }) ∧
    (s.env.rxFatal = false → s.env.rxq = [] → step s = .fault .idleWaits)

/-- R120: RECEIVING takes the oldest datagram into the latch, cut to RX_CAP, with its source, and
everything else stays; a fatal receive halts. The model's choices: the bytes of the buffer past the
datagram stay (log 5); a pending fatal condition is answered before any datagram, and that answer ends
it (log 8); with nothing pending, which no reachable state is, `Recv` has no answer and the step stops
by name (log 13). -/
def Obligations.ReceivingLatchesTheOldestDatagram : Prop :=
  ∀ (s : State) (d : Datagram) (q : List Datagram), s.fsm = .receiving → s.env.agenda = [] →
    (s.env.rxFatal = true →
      step s = .next { s with
        haltCause := .recvFatal
        fsm := .halted
        env := { s.env with rxFatal := false } }) ∧
    (s.env.rxFatal = false → s.env.rxq = [] → step s = .fault .recvUnanswered) ∧
    (s.env.rxFatal = false → s.env.rxq = d :: q → Memory.wf s.rxBuf →
      ∃ m, Memory.wf m ∧
        (∀ a, Memory.read m a =
          if a < min d.bytes.length s.build.rxCap then d.bytes[a]? else Memory.read s.rxBuf a) ∧
        step s = .next { s with
          rxLen := min d.bytes.length s.build.rxCap
          rxBuf := m
          rxSrc := d.src
          cnt := { s.cnt with rx := s.cnt.rx + 1 }
          fsm := .decoding
          env := { s.env with rxq := q } })

/-- R116 and R123: CONFIG and HALTED have no step of the block's own. That `step` says so by a named
fault is the model's form (log 13). -/
def Obligations.ConfigAndHaltedHaveNoStep : Prop :=
  ∀ s : State, s.env.agenda = [] →
    (s.fsm = .config → step s = .fault .configWaits) ∧
      (s.fsm = .halted → step s = .fault .haltedStops)

/-- R125: in a good state with no outside move to come, the block has a step exactly where the run is not
at one of the three ends R125 names. That the end shows as a fault of `step` is the model's form
(log 13). -/
def Obligations.RunEndsExactlyWhereTheRulesSay : Prop :=
  ∀ s : State, Good s → s.env.agenda = [] →
    (blockEnabled s = false ↔ AtRunEnd s) ∧ ((∃ t, step s = .next t) ↔ ¬ AtRunEnd s)

/-- R115: in any step, of any agent, the FSM stays, takes one of the block's edges, leaves CONFIG by
the host's START write, or goes to CONFIG by a reset. -/
def Obligations.FsmTakesOnlyTheEdges : Prop :=
  ∀ s t : State, step s = .next t → t.fsm ≠ s.fsm →
    Fsm.edge s.fsm t.fsm = true ∨
    (s.fsm = .config ∧ t.fsm = .starting ∧ ∃ v : Word, v.getLsbD 0 = true ∧ writesNext s .ctrl v) ∨
    (t.fsm = .config ∧ resetNext s = true)

/-- R123: only a reset leaves HALTED, and until one nothing of the block changes. -/
def Obligations.OnlyResetLeavesHalted : Prop :=
  ∀ s t : State, s.fsm = .halted → resetNext s = false → step s = .next t →
    { t with env := s.env } = s

/-- A datagram from IDLE is processed to its end, back to IDLE, in three steps (it did not decode) or
four: no datagram, whatever its bytes, stops the block (R124); it is counted once and leaves an event
code, and the datagrams behind it are untouched. -/
def Obligations.EveryDatagramIsProcessed : Prop :=
  ∀ (s : State) (d : Datagram) (q : List Datagram), s.fsm = .idle → s.env.agenda = [] →
    s.env.rxFatal = false → s.env.rxq = d :: q → Memory.wf s.rxBuf →
    ∃ (k : Nat) (t : State), (k = 3 ∨ k = 4) ∧ steps k s = some t ∧ t.fsm = .idle ∧
      t.env.rxq = q ∧ t.cnt.rx = s.cnt.rx + 1 ∧ t.lastEvent ≠ .none ∧ t.cfg = s.cfg ∧
      t.haltCause = s.haltCause ∧ t.hist.length ≤ s.hist.length + 1

/-! ### Invariants -/

/-- R132: every step of every agent keeps the three counter sums. -/
def Obligations.StepKeepsTheCounterSums : Prop :=
  ∀ s t : State, CounterLaw s → step s = .next t → CounterLaw t

/-- Every step keeps the result counters equal, modulo 2^32, to the history's entries of their kind since
the last reset. Before those the history holds what that reset left: nothing, or the Reply entry of a
Send that it interrupted (93 U23, log 9). -/
def Obligations.StepKeepsCountersEqualToHistory : Prop :=
  ∀ (kept : List HistEntry) (s t : State), HistoryLaw kept s → step s = .next t →
    HistoryLaw (keptNext kept s) t

/-- Every step keeps: the line ends with the history's frames, and an entry that says Ok carried its
frame. A step that is not a reset puts exactly the line bytes of the entries it adds on the line; a reset
takes no byte off it, and puts one on it only where it interrupts the dispatch of an Output (R150). -/
def Obligations.LineCarriesOnlyTheFrames : Prop :=
  ∀ s t : State, LineLaw s → (∀ e ∈ s.hist, e.honest) → step s = .next t →
    LineLaw t ∧ (∀ e ∈ t.hist, e.honest) ∧
      (resetNext s = false → ∃ new, t.hist = s.hist ++ new ∧
        t.env.line = s.env.line ++ new.flatMap HistEntry.lineBytes) ∧
      (resetNext s = true → ∃ l, t.env.line = s.env.line ++ l ∧ (outputInFlight s = false → l = []))

/-- Every step keeps the datagram latch canonical, inside RX_CAP and written below rx_len, the command to
be dispatched the one the latched datagram decodes to (R71), and something pending in RECEIVING (R119). -/
def Obligations.StepKeepsTheLatchesGood : Prop :=
  ∀ s t : State, Good s → step s = .next t → Good t

/-- From a good state no step reads the datagram latch where it has no value (R29: "never read"), and
none asks for a datagram the collaborator does not have (R119: IDLE is the single suspension point). -/
def Obligations.GoodStateNeverReadsAnUnwrittenByte : Prop :=
  ∀ s : State, Good s → step s ≠ .fault .latchRead ∧ step s ≠ .fault .recvUnanswered

/-- R131: every step keeps HALT_CAUSE at NONE exactly while the FSM is not HALTED. -/
def Obligations.StepKeepsTheHaltCauseLaw : Prop :=
  ∀ s t : State, HaltLaw s → step s = .next t → HaltLaw t

/-- Every step keeps: before the startup step nothing was counted or shown, and the history is what the
last reset left: nothing, or the Reply entry of a Send that it interrupted (93 U23, log 9). -/
def Obligations.StepKeepsTheBlockFreshBeforeStartup : Prop :=
  ∀ (kept : List HistEntry) (s t : State), FreshLaw kept s → step s = .next t →
    FreshLaw (keptNext kept s) t

/-- The invariants hold at reset. What the latches hold there is the model's choice (logs 5 and 6). -/
def Obligations.ResetMeetsTheInvariants : Prop :=
  CounterLaw State.reset ∧ HistoryLaw [] State.reset ∧ LineLaw State.reset ∧ Good State.reset ∧
    HaltLaw State.reset ∧ FreshLaw [] State.reset ∧ Memory.wf State.reset.rxBuf

/-! ### Whole-machine rules -/

/-- R32 and R141: in any step the configuration changes only by a host write of a configuration
register in CONFIG, or by a reset. -/
def Obligations.ConfigurationChangesOnlyByHostInConfig : Prop :=
  ∀ s t : State, step s = .next t → t.cfg ≠ s.cfg →
    (s.fsm = .config ∧ ∃ r v, r.isCfg = true ∧ writesNext s r v) ∨ resetNext s = true

/-- R132: a step of the block increments at most one counter, by one modulo 2^32, and only the step of
the FSM state R132 names counts it. -/
def Obligations.CountersCountInTheirOwnStep : Prop :=
  ∀ s t : State, s.env.agenda = [] → step s = .next t →
    t.cnt = s.cnt ∨ ∃ c : Counter, c.countedIn = s.fsm ∧ t.cnt.get c = s.cnt.get c + 1 ∧
      ∀ c', c' ≠ c → t.cnt.get c' = s.cnt.get c'

/-- R67: a step of any agent but a reset adds at most one history entry, at the end: a reply only in the
dispatch of a Poll, a frame only in that of an Output, a bind only in STARTING. -/
def Obligations.StepAddsAtMostOneHistoryEntry : Prop :=
  ∀ s t : State, resetNext s = false → step s = .next t →
    t.hist = s.hist ∨ ∃ e, t.hist = s.hist ++ [e] ∧
      match e with
      | .reply _ _ _ => pollInFlight s = true
      | .frame _ _ _ => outputInFlight s = true
      | .bind _ => s.fsm = .starting

/-- R29 and R49: bytes of the datagram buffer at offsets from rx_len up are never read. Two states that
differ only there take the same step, but for those bytes themselves; in RECEIVING, but for bytes at
offsets from the new rx_len up; and a reset takes both to the same state. -/
def Obligations.BytesPastTheDatagramDoNotMatter : Prop :=
  ∀ (s : State) (m : Memory), Memory.wf s.rxBuf → Memory.wf m →
    (∀ a < s.rxLen, Memory.read m a = Memory.read s.rxBuf a) →
    (s.fsm ≠ .receiving → resetNext s = false →
      step { s with rxBuf := m } =
        match step s with
        | .next t => .next { t with rxBuf := m }
        | .fault f => .fault f
        | .refused r => .refused r) ∧
    (s.fsm = .receiving → resetNext s = false → ∃ m', Memory.wf m' ∧
      step { s with rxBuf := m } =
        (match step s with
        | .next t => .next { t with rxBuf := m' }
        | .fault f => .fault f
        | .refused r => .refused r) ∧
      ∀ t, step s = .next t → ∀ a < t.rxLen, Memory.read m' a = Memory.read t.rxBuf a) ∧
    (resetNext s = true → step { s with rxBuf := m } = step s)

/-- No step of any agent changes the build parameters of R8. That they stand in State is the model's
form (log 3). -/
def Obligations.BuildNeverChanges : Prop :=
  ∀ s t : State, step s = .next t → t.build = s.build

/-! ### Host access -/

/-- R33 to R42: what a read of each offset of the register map returns, reserved bits zero. -/
def Obligations.RegisterMapReads : Prop :=
  ∀ s : State,
    s.readReg (regAt 0x000) = 0 ∧
    s.readReg (regAt 0x004) = s.status ∧
    s.readReg (regAt 0x008) = s.cfg.serClkHz ∧
    s.readReg (regAt 0x00C) = s.cfg.nodeIp ∧
    s.readReg (regAt 0x010) = s.cfg.nodeMacHi ∧
    s.readReg (regAt 0x014) = s.cfg.nodeMacLo.setWidth 32 <<< 16 ∧
    s.readReg (regAt 0x018) = s.cfg.numPorts.setWidth 32 ∧
    s.readReg (regAt 0x100) = s.cnt.rx ∧
    s.readReg (regAt 0x104) = s.cnt.badHeader ∧
    s.readReg (regAt 0x108) = s.cnt.truncated ∧
    s.readReg (regAt 0x10C) = s.cnt.poll ∧
    s.readReg (regAt 0x110) = s.cnt.pollReply ∧
    s.readReg (regAt 0x114) = s.cnt.output ∧
    s.readReg (regAt 0x118) = s.cnt.other ∧
    s.readReg (regAt 0x11C) = s.cnt.writeOk ∧
    s.readReg (regAt 0x120) = s.cnt.busBusy ∧
    s.readReg (regAt 0x124) = s.cnt.timeout ∧
    s.readReg (regAt 0x128) = s.cnt.replySent ∧
    s.readReg (regAt 0x12C) = s.cnt.replyFail ∧
    s.readReg (regAt 0x140) = s.lastOpcode.setWidth 32 ∧
    s.readReg (regAt 0x144) = s.lastOutUniverse.setWidth 32 ∧
    s.readReg (regAt 0x148) = s.lastOutSeq.setWidth 32 ∧
    s.readReg (regAt 0x14C) = s.lastOutLen.setWidth 32

/-- R40: byte `k` of a name lives in the word at `base + 4·(k div 4)`, byte 0 in bits 7:0; the last
word of SHORT_NAME reads 0 in its reserved half. -/
def Obligations.NameBytesArePackedLowByteFirst : Prop :=
  ∀ s : State,
    (∀ k (h : k < 18), (s.readReg (regAt (0x040 + 4 * (k / 4)))).extractLsb' (8 * (k % 4)) 8 =
      s.cfg.shortName[k]) ∧
    (s.readReg (regAt 0x050)).extractLsb' 16 16 = 0 ∧
    (∀ k (h : k < 64), (s.readReg (regAt (0x080 + 4 * (k / 4)))).extractLsb' (8 * (k % 4)) 8 =
      s.cfg.longName[k])

/-- R35: the fields of STATUS, and the codes that stand in them: R26's of the FSM states, R131's of the
halt causes, R130's of the events. -/
def Obligations.StatusShowsItsFields : Prop :=
  ∀ s : State,
    s.status.extractLsb' 0 3 = s.fsm.code ∧
    (s.status.getLsbD 3 = true ↔ s.fsm = .halted) ∧
    s.status.extractLsb' 4 4 = 0 ∧
    s.status.extractLsb' 8 4 = s.haltCause.code ∧
    s.status.extractLsb' 12 4 = 0 ∧
    s.status.extractLsb' 16 4 = s.lastEvent.code ∧
    s.status.extractLsb' 20 4 = 0 ∧
    s.status.getLsbD 24 = s.env.netReady ∧
    s.status.getLsbD 25 = s.env.sinkReady ∧
    s.status.extractLsb' 26 6 = 0 ∧
    Fsm.config.code = 0 ∧ Fsm.starting.code = 1 ∧ Fsm.idle.code = 2 ∧ Fsm.receiving.code = 3 ∧
    Fsm.decoding.code = 4 ∧ Fsm.dispatching.code = 5 ∧ Fsm.halted.code = 7 ∧
    HaltCause.none.code = 0 ∧ HaltCause.notReadyNet.code = 1 ∧ HaltCause.notReadySink.code = 2 ∧
    HaltCause.clockInvalid.code = 3 ∧ HaltCause.bindFailed.code = 4 ∧ HaltCause.recvFatal.code = 5 ∧
    Event.none.code = 0 ∧ Event.pollReplied.code = 1 ∧ Event.pollReplyFailed.code = 2 ∧
    Event.pollReplyIgnored.code = 3 ∧ Event.outputWritten.code = 4 ∧ Event.writeBusBusy.code = 5 ∧
    Event.writeTimeout.code = 6 ∧ Event.otherIgnored.code = 7 ∧ Event.badHeader.code = 8 ∧
    Event.truncated.code = 9

/-- R126: a host read, in every FSM state, returns the register's value and changes nothing else. -/
def Obligations.HostReadHasNoSideEffect : Prop :=
  ∀ (s : State) (off : Nat) (ms : List Move), off % 4 = 0 → off ≤ 0x1FC →
    s.env.agenda = .host (.read off 4) :: ms →
    step s = .next { s with
      env := { s.env with agenda := ms, rdata := s.readReg (regAt off) } }

/-- R59 with R128: an access of another width, alignment or beyond 0x1FF is refused; no other is. -/
def Obligations.HostAccessOutsideTheInterfaceIsRefused : Prop :=
  ∀ (s : State) (off bytes : Nat) (v : Word) (ms : List Move),
    (s.env.agenda = .host (.read off bytes) :: ms ∨ s.env.agenda = .host (.write off bytes v) :: ms) →
    (step s = .refused .hostAccess ↔ bytes ≠ 4 ∨ off % 4 ≠ 0 ∨ 0x1FF < off)

/-- R117: in CONFIG, a write of a word with bit 0 set to CTRL starts the block; with bit 0 clear, and in
every other state, the write has no effect. -/
def Obligations.StartWriteStartsOnlyInConfig : Prop :=
  ∀ (s : State) (v : Word) (ms : List Move), s.env.agenda = .host (.write 0x000 4 v) :: ms →
    step s = .next { s with
      fsm := if v.getLsbD 0 = true ∧ s.fsm = .config then .starting else s.fsm
      env := { s.env with agenda := ms } }

/-- R127: in CONFIG a write of a configuration register changes its defined bits and nothing else. -/
def Obligations.ConfigWriteSetsItsRegister : Prop :=
  ∀ (s : State) (v : Word) (off : Nat) (ms : List Move), s.fsm = .config →
    s.env.agenda = .host (.write off 4 v) :: ms →
    (off = 0x008 → step s = .next { s with
      cfg := { s.cfg with serClkHz := v }, env := { s.env with agenda := ms } }) ∧
    (off = 0x00C → step s = .next { s with
      cfg := { s.cfg with nodeIp := v }, env := { s.env with agenda := ms } }) ∧
    (off = 0x010 → step s = .next { s with
      cfg := { s.cfg with nodeMacHi := v }, env := { s.env with agenda := ms } }) ∧
    (off = 0x014 → step s = .next { s with
      cfg := { s.cfg with nodeMacLo := v.extractLsb' 16 16 }, env := { s.env with agenda := ms } }) ∧
    (off = 0x018 → step s = .next { s with
      cfg := { s.cfg with numPorts := v.extractLsb' 0 16 }, env := { s.env with agenda := ms } })

/-- R40 with R127: in CONFIG a write of a name word sets the bytes the word holds and no other byte of
the name, and nothing else. -/
def Obligations.NameWriteSetsItsBytes : Prop :=
  ∀ (s : State) (v : Word) (w : Nat) (ms : List Move), s.fsm = .config →
    (w < 5 → s.env.agenda = .host (.write (0x040 + 4 * w) 4 v) :: ms →
      ∃ name : Vector Byte 18,
        (∀ k (h : k < 18), name[k] =
          if k / 4 = w then v.extractLsb' (8 * (k % 4)) 8 else s.cfg.shortName[k]) ∧
        step s = .next { s with
          cfg := { s.cfg with shortName := name }, env := { s.env with agenda := ms } }) ∧
    (w < 16 → s.env.agenda = .host (.write (0x080 + 4 * w) 4 v) :: ms →
      ∃ name : Vector Byte 64,
        (∀ k (h : k < 64), name[k] =
          if k / 4 = w then v.extractLsb' (8 * (k % 4)) 8 else s.cfg.longName[k]) ∧
        step s = .next { s with
          cfg := { s.cfg with longName := name }, env := { s.env with agenda := ms } })

/-- R127, R128 and R153: a write outside CONFIG, or of a read-only or unmapped word, has no effect. -/
def Obligations.OtherHostWritesHaveNoEffect : Prop :=
  ∀ (s : State) (off : Nat) (v : Word) (ms : List Move), off % 4 = 0 → off ≤ 0x1FC →
    s.env.agenda = .host (.write off 4 v) :: ms →
    (s.fsm ≠ .config ∨ off = 0x004 ∨ (0x01C ≤ off ∧ off ≤ 0x03C) ∨ (0x054 ≤ off ∧ off ≤ 0x07C) ∨
      0x0C0 ≤ off) →
    step s = .next { s with env := { s.env with agenda := ms } }

/-- R128: every word offset outside the map of R33 reads 0. -/
def Obligations.UnmappedWordsReadZero : Prop :=
  ∀ (s : State) (off : Nat), off % 4 = 0 →
    (0x01C ≤ off ∧ off ≤ 0x03C) ∨ (0x054 ≤ off ∧ off ≤ 0x07C) ∨ (0x0C0 ≤ off ∧ off ≤ 0x0FC) ∨
      (0x130 ≤ off ∧ off ≤ 0x13C) ∨ (0x150 ≤ off ∧ off ≤ 0x1FC) →
    s.readReg (regAt off) = 0

/-! ### Reset and the environment -/

/-- R149: what a reset leaves, at every element R149 gives a value. The environment's side stays, which
the spec says of the receive queue (R150) and the inputs (R43) and the model of the rest (log 7), and so
do the build parameters (log 3). -/
def Obligations.ResetLeavesTheResetValues : Prop :=
  ∀ (s : State) (ms : List Move), s.env.agenda = .reset :: ms →
    ∃ t, step s = .next t ∧ t.fsm = .config ∧ t.haltCause = .none ∧ t.lastEvent = .none ∧
      t.cfg.serClkHz = 0 ∧ t.cfg.nodeIp = 0 ∧ t.cfg.nodeMacHi = 0 ∧ t.cfg.nodeMacLo = 0 ∧
      t.cfg.numPorts = 1 ∧ (∀ k (h : k < 18), t.cfg.shortName[k] = 0) ∧
      (∀ k (h : k < 64), t.cfg.longName[k] = 0) ∧ (∀ c : Counter, t.cnt.get c = 0) ∧
      t.lastOpcode = 0 ∧ t.lastOutUniverse = 0 ∧ t.lastOutSeq = 0 ∧ t.lastOutLen = 0 ∧
      t.hist = [] ∧ t.readReg (regAt 0x000) = 0 ∧
      t.status.getLsbD 24 = s.env.netReady ∧ t.status.getLsbD 25 = s.env.sinkReady ∧
      t.build = s.build ∧ t.env = { s.env with agenda := ms }

/-- R148 and R150: a reset in the middle of a step leaves the block reset. An interrupted Transmit leaves
any bytes on the line after those already there; an interrupted Send leaves unknown whether the reply
went out, and the history may or may not hold its Reply entry (93 U23); an interrupted Recv leaves unknown
whether it had answered; and the receive queue is not cleared. How the move
carries these draws, and what the latches hold after it, are the model's choice (logs 9, 5 and 6), and so
are what a Recv that had answered took (log 8) and that the rest of the environment stays (log 7). -/
def Obligations.ResetDuringAStepLeavesItsEffectOpen : Prop :=
  ∀ (s : State) (l : List Byte) (done : Bool) (entry : Option SendAnswer) (ms : List Move),
    s.env.agenda = .resetMid l done entry :: ms →
    (∀ seq uni n, s.fsm = .dispatching → s.cmd = .opOutput seq uni n →
      step s = .next { State.reset with
        build := s.build
        env := { s.env with agenda := ms, line := s.env.line ++ l } }) ∧
    (∀ flags diag, s.fsm = .dispatching → s.cmd = .opPoll flags diag →
      step s = .next { State.reset with
        build := s.build
        hist :=
          (match entry with
            | none => []
            | some r => [.reply (replyDst s.rxSrc) (buildReply s.cfg) r])
        env := { s.env with
          agenda := ms
          sent := s.env.sent ++ (if done then [(replyDst s.rxSrc, buildReply s.cfg)] else []) } }) ∧
    (s.fsm = .receiving →
      step s = .next { State.reset with
        build := s.build
        env := { s.env with
          agenda := ms
          rxFatal := if done then false else s.env.rxFatal
          rxq := if done ∧ s.env.rxFatal = false then s.env.rxq.tail else s.env.rxq } }) ∧
    (s.fsm ≠ .dispatching ∨ s.cmd = .opPollReply ∨ (∃ op, s.cmd = .other op) → s.fsm ≠ .receiving →
      step s = .next { State.reset with build := s.build, env := { s.env with agenda := ms } })

/-- R43: the inputs follow their drivers at any time, shown live in STATUS, and a change of theirs
changes nothing else. -/
def Obligations.InputsAreLive : Prop :=
  ∀ (s : State) (b : Bool) (ms : List Move),
    (s.env.agenda = .setNetReady b :: ms →
      ∃ t, step s = .next t ∧ t = { s with env := { s.env with agenda := ms, netReady := b } } ∧
        t.status.getLsbD 24 = b ∧ t.status.getLsbD 25 = s.status.getLsbD 25) ∧
    (s.env.agenda = .setSinkReady b :: ms →
      ∃ t, step s = .next t ∧ t = { s with env := { s.env with agenda := ms, sinkReady := b } } ∧
        t.status.getLsbD 25 = b ∧ t.status.getLsbD 24 = s.status.getLsbD 24)

/-- R45: an arriving datagram goes behind those that wait, or is dropped unseen when the queue is
full. -/
def Obligations.ArrivalsQueueInOrderOrDrop : Prop :=
  ∀ (s : State) (d : Datagram) (ms : List Move), s.env.agenda = .arrive d :: ms →
    step s = .next { s with env := { s.env with
      agenda := ms
      rxq := if s.env.rxq.length < s.build.rxqDepth then s.env.rxq ++ [d] else s.env.rxq } }

/-- R14 and R144: the network collaborator may signal a fatal receive condition at any time, which shows
in nothing until the block asks. That it stays until a Recv answers it is the model's choice (log 8). -/
def Obligations.FatalReceiveIsSignalled : Prop :=
  ∀ (s : State) (ms : List Move), s.env.agenda = .signalRxFatal :: ms →
    step s = .next { s with env := { s.env with agenda := ms, rxFatal := true } } ∧
      rxPending { s with env := { s.env with agenda := ms, rxFatal := true } } = true
end

