-- ==== Sys2Proof/Laws/Memory.lean ====
section
/-!
SUPPORT. The laws of the datagram space: a write keeps the canonical form, reads back what it wrote and
leaves every other offset alone; the one-pass range read is the bytewise read.
-/

namespace Sys2Proof.Machine

@[simp] theorem Memory.read_nil (a : Nat) : Memory.read [] a = none := rfl

theorem Memory.read_cons (c : Host.Cell) (m : Memory) (a : Nat) :
    Memory.read (c :: m) a = if a = c.1 then some c.2 else Memory.read m a := by
  obtain ⟨k, b⟩ := c
  by_cases h : a = k
  · simp [Memory.read, List.lookup, h]
  · have hb : (a == k) = false := by simpa using h
    simp [Memory.read, List.lookup, h, hb]

theorem Memory.read_append (m n : Memory) (a : Nat) :
    Memory.read (m ++ n) a = (Memory.read m a).or (Memory.read n a) := by
  induction m with
  | nil => simp
  | cons c m ih =>
    rw [List.cons_append, Memory.read_cons, Memory.read_cons, ih]
    split <;> simp

theorem Memory.read_eq_none_of_forall_ne {m : Memory} {a : Nat} (h : ∀ c ∈ m, c.1 ≠ a) :
    Memory.read m a = none := by
  induction m with
  | nil => rfl
  | cons c m ih =>
    rw [Memory.read_cons, if_neg (fun e => h c (by simp) e.symm)]
    exact ih fun c' hc' => h c' (by simp [hc'])

/-- A filter on offsets keeps the bytes at the offsets it keeps. -/
theorem Memory.read_filter (p : Nat → Bool) (m : Memory) (a : Nat) :
    Memory.read (m.filter fun c => p c.1) a = if p a then Memory.read m a else none := by
  induction m with
  | nil => simp
  | cons c m ih =>
    by_cases hc : p c.1
    · rw [List.filter_cons_of_pos (p := fun c : Host.Cell => p c.1) hc, Memory.read_cons, Memory.read_cons, ih]
      by_cases ha : a = c.1
      · simp [ha, hc]
      · simp [ha]
    · rw [List.filter_cons_of_neg (p := fun c : Host.Cell => p c.1) hc, ih, Memory.read_cons]
      by_cases ha : a = c.1
      · simp [ha, hc]
      · simp [ha]

theorem Memory.mem_cellsFrom {base : Nat} {bs : List Byte} {c : Host.Cell}
    (h : c ∈ Memory.cellsFrom base bs) : base ≤ c.1 ∧ c.1 < base + bs.length := by
  induction bs generalizing base with
  | nil => simp [Memory.cellsFrom] at h
  | cons b bs ih =>
    simp only [Memory.cellsFrom, List.mem_cons] at h
    rcases h with rfl | h
    · simp
    · have := ih h
      simp only [List.length_cons]
      omega

theorem Memory.cellsFrom_wf (base : Nat) (bs : List Byte) : Memory.wf (Memory.cellsFrom base bs) := by
  induction bs generalizing base with
  | nil => exact List.Pairwise.nil
  | cons b bs ih =>
    refine List.Pairwise.cons (fun c hc => ?_) (ih (base + 1))
    have := Memory.mem_cellsFrom hc
    show base < c.1
    omega

theorem Memory.read_cellsFrom (base : Nat) (bs : List Byte) (a : Nat) :
    Memory.read (Memory.cellsFrom base bs) a = if base ≤ a then bs[a - base]? else none := by
  induction bs generalizing base with
  | nil => simp [Memory.cellsFrom]
  | cons b bs ih =>
    simp only [Memory.cellsFrom, Memory.read_cons]
    rw [ih]
    by_cases h1 : a = base
    · simp [h1]
    · by_cases h2 : base ≤ a
      · have : a - base = (a - (base + 1)) + 1 := by omega
        rw [if_neg h1, if_pos (by omega), if_pos h2, this, List.getElem?_cons_succ]
      · rw [if_neg h1, if_neg (by omega), if_neg h2]

/-- A write keeps the canonical form. -/
theorem Memory.write_wf {m : Memory} (h : Memory.wf m) (base : Nat) (bs : List Byte) :
    Memory.wf (Memory.write base bs m) := by
  refine List.pairwise_append.2 ⟨List.pairwise_append.2
    ⟨h.sublist List.filter_sublist, Memory.cellsFrom_wf base bs, ?_⟩,
    h.sublist List.filter_sublist, ?_⟩
  · intro x hx y hy
    have hy' := Memory.mem_cellsFrom hy
    have hx' := List.of_mem_filter hx
    simp only [decide_eq_true_eq] at hx'
    omega
  · intro x hx y hy
    have hy' := List.of_mem_filter hy
    simp only [decide_eq_true_eq] at hy'
    rcases List.mem_append.1 hx with hx | hx
    · have hx' := List.of_mem_filter hx
      simp only [decide_eq_true_eq] at hx'
      omega
    · have hx' := Memory.mem_cellsFrom hx
      omega

/-- A read after a write: the written bytes where they were written, the old ones elsewhere. -/
theorem Memory.read_write (m : Memory) (base : Nat) (bs : List Byte) (a : Nat) :
    Memory.read (Memory.write base bs m) a =
      if base ≤ a ∧ a < base + bs.length then bs[a - base]? else Memory.read m a := by
  simp only [Memory.write, Memory.read_append, Memory.read_cellsFrom]
  rw [Memory.read_filter (fun k => decide (k < base)), Memory.read_filter (fun k => decide _)]
  by_cases h1 : a < base
  · have : ¬ base ≤ a := by omega
    have h3 : ¬ (base + bs.length ≤ a) := by omega
    simp [h1, this, h3]
  · by_cases h2 : a < base + bs.length
    · have h0 : base ≤ a := by omega
      have h3 : a - base < bs.length := by omega
      simp [h1, h2, h0, h3]
    · have h0 : base ≤ a := by omega
      have h4 : base + bs.length ≤ a := by omega
      have h3 : bs[a - base]? = none := List.getElem?_eq_none (by omega)
      simp [h1, h2, h0, h3, h4]

/-- The written offsets are the old ones and the new ones. -/
theorem Memory.mem_write {m : Memory} {base : Nat} {bs : List Byte} {c : Host.Cell}
    (h : c ∈ Memory.write base bs m) : c ∈ m ∨ (base ≤ c.1 ∧ c.1 < base + bs.length) := by
  rcases List.mem_append.1 h with h | h
  · rcases List.mem_append.1 h with h | h
    · exact .inl (List.mem_of_mem_filter h)
    · exact .inr (Memory.mem_cellsFrom h)
  · exact .inl (List.mem_of_mem_filter h)

@[simp] theorem Memory.readRange_zero (m : Memory) (a : Nat) :
    Memory.readRange m a 0 = some [] := by
  cases m <;> simp [Memory.readRange]

/-- The one-pass range read answers exactly the bytes that reading one offset after another gives. -/
theorem Memory.readRange_eq_some_iff {m : Memory} (h : Memory.wf m) (a n : Nat) (bs : List Byte) :
    Memory.readRange m a n = some bs ↔
      bs.length = n ∧ ∀ k < n, Memory.read m (a + k) = bs[k]? := by
  induction m generalizing a n bs with
  | nil =>
    cases n with
    | zero => cases bs <;> simp
    | succ n =>
      simp only [Memory.readRange, Nat.succ_ne_zero, if_false, reduceCtorEq, Memory.read_nil, false_iff]
      rintro ⟨hl, hk⟩
      have := hk 0 (by omega)
      rw [List.getElem?_eq_getElem (by omega)] at this
      cases this
  | cons c m ih =>
    have hm : Memory.wf m := (List.pairwise_cons.1 h).2
    have hlt : ∀ d ∈ m, c.1 < d.1 := (List.pairwise_cons.1 h).1
    cases n with
    | zero => cases bs <;> simp
    | succ n =>
      simp only [Memory.readRange, Nat.succ_ne_zero, if_false, Nat.succ_sub_one]
      by_cases h1 : c.1 < a
      · rw [if_pos h1, ih hm]
        refine and_congr_right fun _ => forall₂_congr fun k _ => ?_
        rw [Memory.read_cons, if_neg (by omega)]
      · rw [if_neg h1]
        by_cases h2 : c.1 = a
        · rw [if_pos h2]
          cases bs with
          | nil => simp
          | cons b bs =>
            have key : Memory.readRange m (a + 1) n = some bs ↔
                bs.length = n ∧ ∀ k < n, Memory.read m (a + 1 + k) = bs[k]? := ih hm (a + 1) n bs
            simp only [Option.map_eq_some_iff, List.cons.injEq, List.length_cons, Nat.add_right_cancel_iff]
            constructor
            · rintro ⟨bs', hb, hcb, rfl⟩
              obtain ⟨hl, hk⟩ := key.1 hb
              refine ⟨hl, fun k hk' => ?_⟩
              rw [Memory.read_cons]
              cases k with
              | zero => simp [h2, hcb]
              | succ k =>
                rw [if_neg (by omega), List.getElem?_cons_succ, ← hk k (by omega)]
                congr 1
                omega
            · rintro ⟨hl, hk⟩
              refine ⟨bs, key.2 ⟨hl, fun k hk' => ?_⟩, ?_, rfl⟩
              · have := hk (k + 1) (by omega)
                rw [Memory.read_cons, if_neg (by omega), List.getElem?_cons_succ] at this
                rw [← this]
                congr 1
                omega
              · have := hk 0 (by omega)
                rw [Memory.read_cons, if_pos (by omega)] at this
                simpa using this
        · rw [if_neg h2]
          simp only [reduceCtorEq, false_iff]
          rintro ⟨hl, hk⟩
          have := hk 0 (by omega)
          rw [List.getElem?_eq_getElem (by omega),
            Memory.read_eq_none_of_forall_ne (by
              intro d hd
              rcases List.mem_cons.1 hd with rfl | hd
              · omega
              · have := hlt d hd
                omega)] at this
          cases this

/-- A range whose every offset was written can be read. -/
theorem Memory.readRange_isSome {m : Memory} (h : Memory.wf m) (a n : Nat)
    (hk : ∀ k < n, (Memory.read m (a + k)).isSome = true) :
    ∃ bs, Memory.readRange m a n = some bs := by
  let bs : List Byte := (List.range n).map fun k => (Memory.read m (a + k)).getD 0
  refine ⟨bs, (Memory.readRange_eq_some_iff h a n bs).2 ⟨by simp [bs], fun k hk' => ?_⟩⟩
  obtain ⟨b, hb⟩ := Option.isSome_iff_exists.1 (hk k hk')
  simp [bs, hk', hb]

/-- What `MemRead` answers: bytes of the latched datagram, one for each offset asked for. -/
theorem State.memRead_eq_some_iff {s : State} (h : Memory.wf s.rxBuf) (a n : Nat) (bs : List Byte) :
    s.memRead a n = some bs ↔
      a + n ≤ s.rxLen ∧ bs.length = n ∧ ∀ k < n, Memory.read s.rxBuf (a + k) = bs[k]? := by
  unfold State.memRead
  split
  · rename_i h'
    rw [Memory.readRange_eq_some_iff h]
    simp [h']
  · rename_i h'
    simp [h']

end Sys2Proof.Machine
end

