-- ==== Sys2Proof/Laws/State.lean ====
section
/-!
SUPPORT. One lemma per field per named update of State, each true by definition, so that no proof
unfolds a record update.
-/

namespace Sys2Proof.Machine

/-! ### State.count -/

@[simp] theorem State.count_fsm (s : State) (c : Counter) : (s.count c).fsm = s.fsm := rfl
@[simp] theorem State.count_rxBuf (s : State) (c : Counter) : (s.count c).rxBuf = s.rxBuf := rfl
@[simp] theorem State.count_rxLen (s : State) (c : Counter) : (s.count c).rxLen = s.rxLen := rfl
@[simp] theorem State.count_rxSrc (s : State) (c : Counter) : (s.count c).rxSrc = s.rxSrc := rfl
@[simp] theorem State.count_cmd (s : State) (c : Counter) : (s.count c).cmd = s.cmd := rfl
@[simp] theorem State.count_cfg (s : State) (c : Counter) : (s.count c).cfg = s.cfg := rfl
@[simp] theorem State.count_cnt (s : State) (c : Counter) : (s.count c).cnt = s.cnt.bump c := rfl
@[simp] theorem State.count_haltCause (s : State) (c : Counter) :
    (s.count c).haltCause = s.haltCause := rfl
@[simp] theorem State.count_lastEvent (s : State) (c : Counter) :
    (s.count c).lastEvent = s.lastEvent := rfl
@[simp] theorem State.count_lastOpcode (s : State) (c : Counter) :
    (s.count c).lastOpcode = s.lastOpcode := rfl
@[simp] theorem State.count_lastOutUniverse (s : State) (c : Counter) :
    (s.count c).lastOutUniverse = s.lastOutUniverse := rfl
@[simp] theorem State.count_lastOutSeq (s : State) (c : Counter) :
    (s.count c).lastOutSeq = s.lastOutSeq := rfl
@[simp] theorem State.count_lastOutLen (s : State) (c : Counter) :
    (s.count c).lastOutLen = s.lastOutLen := rfl
@[simp] theorem State.count_hist (s : State) (c : Counter) : (s.count c).hist = s.hist := rfl
@[simp] theorem State.count_build (s : State) (c : Counter) : (s.count c).build = s.build := rfl
@[simp] theorem State.count_env (s : State) (c : Counter) : (s.count c).env = s.env := rfl

/-! ### State.record -/

@[simp] theorem State.record_fsm (s : State) (e : HistEntry) : (s.record e).fsm = s.fsm := rfl
@[simp] theorem State.record_rxBuf (s : State) (e : HistEntry) : (s.record e).rxBuf = s.rxBuf := rfl
@[simp] theorem State.record_rxLen (s : State) (e : HistEntry) : (s.record e).rxLen = s.rxLen := rfl
@[simp] theorem State.record_rxSrc (s : State) (e : HistEntry) : (s.record e).rxSrc = s.rxSrc := rfl
@[simp] theorem State.record_cmd (s : State) (e : HistEntry) : (s.record e).cmd = s.cmd := rfl
@[simp] theorem State.record_cfg (s : State) (e : HistEntry) : (s.record e).cfg = s.cfg := rfl
@[simp] theorem State.record_cnt (s : State) (e : HistEntry) : (s.record e).cnt = s.cnt := rfl
@[simp] theorem State.record_haltCause (s : State) (e : HistEntry) :
    (s.record e).haltCause = s.haltCause := rfl
@[simp] theorem State.record_lastEvent (s : State) (e : HistEntry) :
    (s.record e).lastEvent = s.lastEvent := rfl
@[simp] theorem State.record_lastOpcode (s : State) (e : HistEntry) :
    (s.record e).lastOpcode = s.lastOpcode := rfl
@[simp] theorem State.record_lastOutUniverse (s : State) (e : HistEntry) :
    (s.record e).lastOutUniverse = s.lastOutUniverse := rfl
@[simp] theorem State.record_lastOutSeq (s : State) (e : HistEntry) :
    (s.record e).lastOutSeq = s.lastOutSeq := rfl
@[simp] theorem State.record_lastOutLen (s : State) (e : HistEntry) :
    (s.record e).lastOutLen = s.lastOutLen := rfl
@[simp] theorem State.record_hist (s : State) (e : HistEntry) :
    (s.record e).hist = s.hist ++ [e] := rfl
@[simp] theorem State.record_build (s : State) (e : HistEntry) : (s.record e).build = s.build := rfl
@[simp] theorem State.record_env (s : State) (e : HistEntry) : (s.record e).env = s.env := rfl

/-! ### State.goto -/

@[simp] theorem State.goto_fsm (s : State) (f : Fsm) : (s.goto f).fsm = f := rfl
@[simp] theorem State.goto_rxBuf (s : State) (f : Fsm) : (s.goto f).rxBuf = s.rxBuf := rfl
@[simp] theorem State.goto_rxLen (s : State) (f : Fsm) : (s.goto f).rxLen = s.rxLen := rfl
@[simp] theorem State.goto_rxSrc (s : State) (f : Fsm) : (s.goto f).rxSrc = s.rxSrc := rfl
@[simp] theorem State.goto_cmd (s : State) (f : Fsm) : (s.goto f).cmd = s.cmd := rfl
@[simp] theorem State.goto_cfg (s : State) (f : Fsm) : (s.goto f).cfg = s.cfg := rfl
@[simp] theorem State.goto_cnt (s : State) (f : Fsm) : (s.goto f).cnt = s.cnt := rfl
@[simp] theorem State.goto_haltCause (s : State) (f : Fsm) :
    (s.goto f).haltCause = s.haltCause := rfl
@[simp] theorem State.goto_lastEvent (s : State) (f : Fsm) :
    (s.goto f).lastEvent = s.lastEvent := rfl
@[simp] theorem State.goto_lastOpcode (s : State) (f : Fsm) :
    (s.goto f).lastOpcode = s.lastOpcode := rfl
@[simp] theorem State.goto_lastOutUniverse (s : State) (f : Fsm) :
    (s.goto f).lastOutUniverse = s.lastOutUniverse := rfl
@[simp] theorem State.goto_lastOutSeq (s : State) (f : Fsm) :
    (s.goto f).lastOutSeq = s.lastOutSeq := rfl
@[simp] theorem State.goto_lastOutLen (s : State) (f : Fsm) :
    (s.goto f).lastOutLen = s.lastOutLen := rfl
@[simp] theorem State.goto_hist (s : State) (f : Fsm) : (s.goto f).hist = s.hist := rfl
@[simp] theorem State.goto_build (s : State) (f : Fsm) : (s.goto f).build = s.build := rfl
@[simp] theorem State.goto_env (s : State) (f : Fsm) : (s.goto f).env = s.env := rfl

/-! ### State.finish -/

@[simp] theorem State.finish_fsm (s : State) (e : Event) : (s.finish e).fsm = .idle := rfl
@[simp] theorem State.finish_rxBuf (s : State) (e : Event) : (s.finish e).rxBuf = s.rxBuf := rfl
@[simp] theorem State.finish_rxLen (s : State) (e : Event) : (s.finish e).rxLen = s.rxLen := rfl
@[simp] theorem State.finish_rxSrc (s : State) (e : Event) : (s.finish e).rxSrc = s.rxSrc := rfl
@[simp] theorem State.finish_cmd (s : State) (e : Event) : (s.finish e).cmd = s.cmd := rfl
@[simp] theorem State.finish_cfg (s : State) (e : Event) : (s.finish e).cfg = s.cfg := rfl
@[simp] theorem State.finish_cnt (s : State) (e : Event) : (s.finish e).cnt = s.cnt := rfl
@[simp] theorem State.finish_haltCause (s : State) (e : Event) :
    (s.finish e).haltCause = s.haltCause := rfl
@[simp] theorem State.finish_lastEvent (s : State) (e : Event) : (s.finish e).lastEvent = e := rfl
@[simp] theorem State.finish_lastOpcode (s : State) (e : Event) :
    (s.finish e).lastOpcode = s.lastOpcode := rfl
@[simp] theorem State.finish_lastOutUniverse (s : State) (e : Event) :
    (s.finish e).lastOutUniverse = s.lastOutUniverse := rfl
@[simp] theorem State.finish_lastOutSeq (s : State) (e : Event) :
    (s.finish e).lastOutSeq = s.lastOutSeq := rfl
@[simp] theorem State.finish_lastOutLen (s : State) (e : Event) :
    (s.finish e).lastOutLen = s.lastOutLen := rfl
@[simp] theorem State.finish_hist (s : State) (e : Event) : (s.finish e).hist = s.hist := rfl
@[simp] theorem State.finish_build (s : State) (e : Event) : (s.finish e).build = s.build := rfl
@[simp] theorem State.finish_env (s : State) (e : Event) : (s.finish e).env = s.env := rfl

/-! ### State.contain -/

@[simp] theorem State.contain_fsm (s : State) (c : Counter) (e : Event) :
    (s.contain c e).fsm = .idle := rfl
@[simp] theorem State.contain_rxBuf (s : State) (c : Counter) (e : Event) :
    (s.contain c e).rxBuf = s.rxBuf := rfl
@[simp] theorem State.contain_rxLen (s : State) (c : Counter) (e : Event) :
    (s.contain c e).rxLen = s.rxLen := rfl
@[simp] theorem State.contain_rxSrc (s : State) (c : Counter) (e : Event) :
    (s.contain c e).rxSrc = s.rxSrc := rfl
@[simp] theorem State.contain_cmd (s : State) (c : Counter) (e : Event) :
    (s.contain c e).cmd = s.cmd := rfl
@[simp] theorem State.contain_cfg (s : State) (c : Counter) (e : Event) :
    (s.contain c e).cfg = s.cfg := rfl
@[simp] theorem State.contain_cnt (s : State) (c : Counter) (e : Event) :
    (s.contain c e).cnt = s.cnt.bump c := rfl
@[simp] theorem State.contain_haltCause (s : State) (c : Counter) (e : Event) :
    (s.contain c e).haltCause = s.haltCause := rfl
@[simp] theorem State.contain_lastEvent (s : State) (c : Counter) (e : Event) :
    (s.contain c e).lastEvent = e := rfl
@[simp] theorem State.contain_lastOpcode (s : State) (c : Counter) (e : Event) :
    (s.contain c e).lastOpcode = s.lastOpcode := rfl
@[simp] theorem State.contain_lastOutUniverse (s : State) (c : Counter) (e : Event) :
    (s.contain c e).lastOutUniverse = s.lastOutUniverse := rfl
@[simp] theorem State.contain_lastOutSeq (s : State) (c : Counter) (e : Event) :
    (s.contain c e).lastOutSeq = s.lastOutSeq := rfl
@[simp] theorem State.contain_lastOutLen (s : State) (c : Counter) (e : Event) :
    (s.contain c e).lastOutLen = s.lastOutLen := rfl
@[simp] theorem State.contain_hist (s : State) (c : Counter) (e : Event) :
    (s.contain c e).hist = s.hist := rfl
@[simp] theorem State.contain_build (s : State) (c : Counter) (e : Event) :
    (s.contain c e).build = s.build := rfl
@[simp] theorem State.contain_env (s : State) (c : Counter) (e : Event) :
    (s.contain c e).env = s.env := rfl

/-! ### State.halt -/

@[simp] theorem State.halt_fsm (s : State) (c : HaltCause) : (s.halt c).fsm = .halted := rfl
@[simp] theorem State.halt_rxBuf (s : State) (c : HaltCause) : (s.halt c).rxBuf = s.rxBuf := rfl
@[simp] theorem State.halt_rxLen (s : State) (c : HaltCause) : (s.halt c).rxLen = s.rxLen := rfl
@[simp] theorem State.halt_rxSrc (s : State) (c : HaltCause) : (s.halt c).rxSrc = s.rxSrc := rfl
@[simp] theorem State.halt_cmd (s : State) (c : HaltCause) : (s.halt c).cmd = s.cmd := rfl
@[simp] theorem State.halt_cfg (s : State) (c : HaltCause) : (s.halt c).cfg = s.cfg := rfl
@[simp] theorem State.halt_cnt (s : State) (c : HaltCause) : (s.halt c).cnt = s.cnt := rfl
@[simp] theorem State.halt_haltCause (s : State) (c : HaltCause) : (s.halt c).haltCause = c := rfl
@[simp] theorem State.halt_lastEvent (s : State) (c : HaltCause) :
    (s.halt c).lastEvent = s.lastEvent := rfl
@[simp] theorem State.halt_lastOpcode (s : State) (c : HaltCause) :
    (s.halt c).lastOpcode = s.lastOpcode := rfl
@[simp] theorem State.halt_lastOutUniverse (s : State) (c : HaltCause) :
    (s.halt c).lastOutUniverse = s.lastOutUniverse := rfl
@[simp] theorem State.halt_lastOutSeq (s : State) (c : HaltCause) :
    (s.halt c).lastOutSeq = s.lastOutSeq := rfl
@[simp] theorem State.halt_lastOutLen (s : State) (c : HaltCause) :
    (s.halt c).lastOutLen = s.lastOutLen := rfl
@[simp] theorem State.halt_hist (s : State) (c : HaltCause) : (s.halt c).hist = s.hist := rfl
@[simp] theorem State.halt_build (s : State) (c : HaltCause) : (s.halt c).build = s.build := rfl
@[simp] theorem State.halt_env (s : State) (c : HaltCause) : (s.halt c).env = s.env := rfl

/-! ### State.latch -/

@[simp] theorem State.latch_fsm (s : State) (d : Datagram) : (s.latch d).fsm = s.fsm := rfl
@[simp] theorem State.latch_rxBuf (s : State) (d : Datagram) :
    (s.latch d).rxBuf = Memory.write 0 (d.bytes.take s.build.rxCap) s.rxBuf := rfl
@[simp] theorem State.latch_rxLen (s : State) (d : Datagram) :
    (s.latch d).rxLen = min d.bytes.length s.build.rxCap := rfl
@[simp] theorem State.latch_rxSrc (s : State) (d : Datagram) : (s.latch d).rxSrc = d.src := rfl
@[simp] theorem State.latch_cmd (s : State) (d : Datagram) : (s.latch d).cmd = s.cmd := rfl
@[simp] theorem State.latch_cfg (s : State) (d : Datagram) : (s.latch d).cfg = s.cfg := rfl
@[simp] theorem State.latch_cnt (s : State) (d : Datagram) : (s.latch d).cnt = s.cnt := rfl
@[simp] theorem State.latch_haltCause (s : State) (d : Datagram) :
    (s.latch d).haltCause = s.haltCause := rfl
@[simp] theorem State.latch_lastEvent (s : State) (d : Datagram) :
    (s.latch d).lastEvent = s.lastEvent := rfl
@[simp] theorem State.latch_lastOpcode (s : State) (d : Datagram) :
    (s.latch d).lastOpcode = s.lastOpcode := rfl
@[simp] theorem State.latch_lastOutUniverse (s : State) (d : Datagram) :
    (s.latch d).lastOutUniverse = s.lastOutUniverse := rfl
@[simp] theorem State.latch_lastOutSeq (s : State) (d : Datagram) :
    (s.latch d).lastOutSeq = s.lastOutSeq := rfl
@[simp] theorem State.latch_lastOutLen (s : State) (d : Datagram) :
    (s.latch d).lastOutLen = s.lastOutLen := rfl
@[simp] theorem State.latch_hist (s : State) (d : Datagram) : (s.latch d).hist = s.hist := rfl
@[simp] theorem State.latch_build (s : State) (d : Datagram) : (s.latch d).build = s.build := rfl
@[simp] theorem State.latch_env (s : State) (d : Datagram) : (s.latch d).env = s.env := rfl

/-! ### State.bind -/

@[simp] theorem State.bind_fsm (s : State) : (s.bind).fsm = s.fsm := rfl
@[simp] theorem State.bind_rxBuf (s : State) : (s.bind).rxBuf = s.rxBuf := rfl
@[simp] theorem State.bind_rxLen (s : State) : (s.bind).rxLen = s.rxLen := rfl
@[simp] theorem State.bind_rxSrc (s : State) : (s.bind).rxSrc = s.rxSrc := rfl
@[simp] theorem State.bind_cmd (s : State) : (s.bind).cmd = s.cmd := rfl
@[simp] theorem State.bind_cfg (s : State) : (s.bind).cfg = s.cfg := rfl
@[simp] theorem State.bind_cnt (s : State) : (s.bind).cnt = s.cnt := rfl
@[simp] theorem State.bind_haltCause (s : State) : (s.bind).haltCause = s.haltCause := rfl
@[simp] theorem State.bind_lastEvent (s : State) : (s.bind).lastEvent = s.lastEvent := rfl
@[simp] theorem State.bind_lastOpcode (s : State) : (s.bind).lastOpcode = s.lastOpcode := rfl
@[simp] theorem State.bind_lastOutUniverse (s : State) :
    (s.bind).lastOutUniverse = s.lastOutUniverse := rfl
@[simp] theorem State.bind_lastOutSeq (s : State) : (s.bind).lastOutSeq = s.lastOutSeq := rfl
@[simp] theorem State.bind_lastOutLen (s : State) : (s.bind).lastOutLen = s.lastOutLen := rfl
@[simp] theorem State.bind_hist (s : State) : (s.bind).hist = s.hist ++ [.bind s.bindAnswer] := rfl
@[simp] theorem State.bind_build (s : State) : (s.bind).build = s.build := rfl
@[simp] theorem State.bind_env (s : State) :
    (s.bind).env = { s.env with bindAns := s.env.bindAns.tail, draws := s.env.draws + 1 } := rfl

/-! ### State.send -/

@[simp] theorem State.send_fsm (s : State) (dst : Endpoint) (bytes : List Byte) :
    (s.send dst bytes).fsm = s.fsm := rfl
@[simp] theorem State.send_rxBuf (s : State) (dst : Endpoint) (bytes : List Byte) :
    (s.send dst bytes).rxBuf = s.rxBuf := rfl
@[simp] theorem State.send_rxLen (s : State) (dst : Endpoint) (bytes : List Byte) :
    (s.send dst bytes).rxLen = s.rxLen := rfl
@[simp] theorem State.send_rxSrc (s : State) (dst : Endpoint) (bytes : List Byte) :
    (s.send dst bytes).rxSrc = s.rxSrc := rfl
@[simp] theorem State.send_cmd (s : State) (dst : Endpoint) (bytes : List Byte) :
    (s.send dst bytes).cmd = s.cmd := rfl
@[simp] theorem State.send_cfg (s : State) (dst : Endpoint) (bytes : List Byte) :
    (s.send dst bytes).cfg = s.cfg := rfl
@[simp] theorem State.send_cnt (s : State) (dst : Endpoint) (bytes : List Byte) :
    (s.send dst bytes).cnt = s.cnt := rfl
@[simp] theorem State.send_haltCause (s : State) (dst : Endpoint) (bytes : List Byte) :
    (s.send dst bytes).haltCause = s.haltCause := rfl
@[simp] theorem State.send_lastEvent (s : State) (dst : Endpoint) (bytes : List Byte) :
    (s.send dst bytes).lastEvent = s.lastEvent := rfl
@[simp] theorem State.send_lastOpcode (s : State) (dst : Endpoint) (bytes : List Byte) :
    (s.send dst bytes).lastOpcode = s.lastOpcode := rfl
@[simp] theorem State.send_lastOutUniverse (s : State) (dst : Endpoint) (bytes : List Byte) :
    (s.send dst bytes).lastOutUniverse = s.lastOutUniverse := rfl
@[simp] theorem State.send_lastOutSeq (s : State) (dst : Endpoint) (bytes : List Byte) :
    (s.send dst bytes).lastOutSeq = s.lastOutSeq := rfl
@[simp] theorem State.send_lastOutLen (s : State) (dst : Endpoint) (bytes : List Byte) :
    (s.send dst bytes).lastOutLen = s.lastOutLen := rfl
@[simp] theorem State.send_hist (s : State) (dst : Endpoint) (bytes : List Byte) :
    (s.send dst bytes).hist = s.hist ++ [.reply dst bytes s.sendAnswer] := rfl
@[simp] theorem State.send_build (s : State) (dst : Endpoint) (bytes : List Byte) :
    (s.send dst bytes).build = s.build := rfl
@[simp] theorem State.send_env (s : State) (dst : Endpoint) (bytes : List Byte) :
    (s.send dst bytes).env = { s.env with
      sent := s.env.sent ++ sentBytes dst bytes s.sendAnswer
      sendAns := s.env.sendAns.tail
      draws := s.env.draws + 1 } := rfl

/-! ### State.transmit -/

@[simp] theorem State.transmit_fsm (s : State) (f : List Byte) : (s.transmit f).fsm = s.fsm := rfl
@[simp] theorem State.transmit_rxBuf (s : State) (f : List Byte) :
    (s.transmit f).rxBuf = s.rxBuf := rfl
@[simp] theorem State.transmit_rxLen (s : State) (f : List Byte) :
    (s.transmit f).rxLen = s.rxLen := rfl
@[simp] theorem State.transmit_rxSrc (s : State) (f : List Byte) :
    (s.transmit f).rxSrc = s.rxSrc := rfl
@[simp] theorem State.transmit_cmd (s : State) (f : List Byte) : (s.transmit f).cmd = s.cmd := rfl
@[simp] theorem State.transmit_cfg (s : State) (f : List Byte) : (s.transmit f).cfg = s.cfg := rfl
@[simp] theorem State.transmit_cnt (s : State) (f : List Byte) : (s.transmit f).cnt = s.cnt := rfl
@[simp] theorem State.transmit_haltCause (s : State) (f : List Byte) :
    (s.transmit f).haltCause = s.haltCause := rfl
@[simp] theorem State.transmit_lastEvent (s : State) (f : List Byte) :
    (s.transmit f).lastEvent = s.lastEvent := rfl
@[simp] theorem State.transmit_lastOpcode (s : State) (f : List Byte) :
    (s.transmit f).lastOpcode = s.lastOpcode := rfl
@[simp] theorem State.transmit_lastOutUniverse (s : State) (f : List Byte) :
    (s.transmit f).lastOutUniverse = s.lastOutUniverse := rfl
@[simp] theorem State.transmit_lastOutSeq (s : State) (f : List Byte) :
    (s.transmit f).lastOutSeq = s.lastOutSeq := rfl
@[simp] theorem State.transmit_lastOutLen (s : State) (f : List Byte) :
    (s.transmit f).lastOutLen = s.lastOutLen := rfl
@[simp] theorem State.transmit_hist (s : State) (f : List Byte) :
    (s.transmit f).hist = s.hist ++ [.frame f (writeResult s.transmitAnswer) (lineBytes f s.transmitAnswer)] := rfl
@[simp] theorem State.transmit_build (s : State) (f : List Byte) :
    (s.transmit f).build = s.build := rfl
@[simp] theorem State.transmit_env (s : State) (f : List Byte) :
    (s.transmit f).env = { s.env with
      line := s.env.line ++ lineBytes f s.transmitAnswer
      txAns := s.env.txAns.tail
      draws := s.env.draws + 1 } := rfl

/-! ### State.withAgenda -/

@[simp] theorem State.withAgenda_fsm (s : State) (ms : List Move) :
    (s.withAgenda ms).fsm = s.fsm := rfl
@[simp] theorem State.withAgenda_rxBuf (s : State) (ms : List Move) :
    (s.withAgenda ms).rxBuf = s.rxBuf := rfl
@[simp] theorem State.withAgenda_rxLen (s : State) (ms : List Move) :
    (s.withAgenda ms).rxLen = s.rxLen := rfl
@[simp] theorem State.withAgenda_rxSrc (s : State) (ms : List Move) :
    (s.withAgenda ms).rxSrc = s.rxSrc := rfl
@[simp] theorem State.withAgenda_cmd (s : State) (ms : List Move) :
    (s.withAgenda ms).cmd = s.cmd := rfl
@[simp] theorem State.withAgenda_cfg (s : State) (ms : List Move) :
    (s.withAgenda ms).cfg = s.cfg := rfl
@[simp] theorem State.withAgenda_cnt (s : State) (ms : List Move) :
    (s.withAgenda ms).cnt = s.cnt := rfl
@[simp] theorem State.withAgenda_haltCause (s : State) (ms : List Move) :
    (s.withAgenda ms).haltCause = s.haltCause := rfl
@[simp] theorem State.withAgenda_lastEvent (s : State) (ms : List Move) :
    (s.withAgenda ms).lastEvent = s.lastEvent := rfl
@[simp] theorem State.withAgenda_lastOpcode (s : State) (ms : List Move) :
    (s.withAgenda ms).lastOpcode = s.lastOpcode := rfl
@[simp] theorem State.withAgenda_lastOutUniverse (s : State) (ms : List Move) :
    (s.withAgenda ms).lastOutUniverse = s.lastOutUniverse := rfl
@[simp] theorem State.withAgenda_lastOutSeq (s : State) (ms : List Move) :
    (s.withAgenda ms).lastOutSeq = s.lastOutSeq := rfl
@[simp] theorem State.withAgenda_lastOutLen (s : State) (ms : List Move) :
    (s.withAgenda ms).lastOutLen = s.lastOutLen := rfl
@[simp] theorem State.withAgenda_hist (s : State) (ms : List Move) :
    (s.withAgenda ms).hist = s.hist := rfl
@[simp] theorem State.withAgenda_build (s : State) (ms : List Move) :
    (s.withAgenda ms).build = s.build := rfl
@[simp] theorem State.withAgenda_env (s : State) (ms : List Move) :
    (s.withAgenda ms).env = { s.env with agenda := ms } := rfl

/-! ### State.applyReset: every field of the block at its reset value, build and environment kept -/

@[simp] theorem State.applyReset_fsm (s : State) : s.applyReset.fsm = State.reset.fsm := rfl
@[simp] theorem State.applyReset_rxBuf (s : State) : s.applyReset.rxBuf = State.reset.rxBuf := rfl
@[simp] theorem State.applyReset_rxLen (s : State) : s.applyReset.rxLen = State.reset.rxLen := rfl
@[simp] theorem State.applyReset_rxSrc (s : State) : s.applyReset.rxSrc = State.reset.rxSrc := rfl
@[simp] theorem State.applyReset_cmd (s : State) : s.applyReset.cmd = State.reset.cmd := rfl
@[simp] theorem State.applyReset_cfg (s : State) : s.applyReset.cfg = State.reset.cfg := rfl
@[simp] theorem State.applyReset_cnt (s : State) : s.applyReset.cnt = State.reset.cnt := rfl
@[simp] theorem State.applyReset_haltCause (s : State) : s.applyReset.haltCause = State.reset.haltCause := rfl
@[simp] theorem State.applyReset_lastEvent (s : State) : s.applyReset.lastEvent = State.reset.lastEvent := rfl
@[simp] theorem State.applyReset_lastOpcode (s : State) : s.applyReset.lastOpcode = State.reset.lastOpcode := rfl
@[simp] theorem State.applyReset_lastOutUniverse (s : State) : s.applyReset.lastOutUniverse = State.reset.lastOutUniverse := rfl
@[simp] theorem State.applyReset_lastOutSeq (s : State) : s.applyReset.lastOutSeq = State.reset.lastOutSeq := rfl
@[simp] theorem State.applyReset_lastOutLen (s : State) : s.applyReset.lastOutLen = State.reset.lastOutLen := rfl
@[simp] theorem State.applyReset_hist (s : State) : s.applyReset.hist = State.reset.hist := rfl
@[simp] theorem State.applyReset_build (s : State) : s.applyReset.build = s.build := rfl
@[simp] theorem State.applyReset_env (s : State) : s.applyReset.env = s.env := rfl

/-! ### State.applyResetMid: as State.applyReset, but for what the interrupted step left -/

section
variable (l : List Byte) (done : Bool) (entry : Option SendAnswer) (s : State)

@[simp] theorem State.applyResetMid_fsm : (s.applyResetMid l done entry).fsm =
    State.reset.fsm := rfl
@[simp] theorem State.applyResetMid_rxBuf : (s.applyResetMid l done entry).rxBuf =
    State.reset.rxBuf := rfl
@[simp] theorem State.applyResetMid_rxLen : (s.applyResetMid l done entry).rxLen =
    State.reset.rxLen := rfl
@[simp] theorem State.applyResetMid_rxSrc : (s.applyResetMid l done entry).rxSrc =
    State.reset.rxSrc := rfl
@[simp] theorem State.applyResetMid_cmd : (s.applyResetMid l done entry).cmd =
    State.reset.cmd := rfl
@[simp] theorem State.applyResetMid_cfg : (s.applyResetMid l done entry).cfg =
    State.reset.cfg := rfl
@[simp] theorem State.applyResetMid_cnt : (s.applyResetMid l done entry).cnt =
    State.reset.cnt := rfl
@[simp] theorem State.applyResetMid_haltCause : (s.applyResetMid l done entry).haltCause =
    State.reset.haltCause := rfl
@[simp] theorem State.applyResetMid_lastEvent : (s.applyResetMid l done entry).lastEvent =
    State.reset.lastEvent := rfl
@[simp] theorem State.applyResetMid_lastOpcode : (s.applyResetMid l done entry).lastOpcode =
    State.reset.lastOpcode := rfl
@[simp] theorem State.applyResetMid_lastOutUniverse : (s.applyResetMid l done entry).lastOutUniverse =
    State.reset.lastOutUniverse := rfl
@[simp] theorem State.applyResetMid_lastOutSeq : (s.applyResetMid l done entry).lastOutSeq =
    State.reset.lastOutSeq := rfl
@[simp] theorem State.applyResetMid_lastOutLen : (s.applyResetMid l done entry).lastOutLen =
    State.reset.lastOutLen := rfl
@[simp] theorem State.applyResetMid_hist : (s.applyResetMid l done entry).hist =
    interruptedHist entry s := rfl
@[simp] theorem State.applyResetMid_build : (s.applyResetMid l done entry).build =
    s.build := rfl
@[simp] theorem State.applyResetMid_env : (s.applyResetMid l done entry).env =
    interruptedEnv l done s := rfl

end

end Sys2Proof.Machine
end

