-- ==== Sys2Proof/Laws/Ops.lean ====
section
/-!
SUPPORT. What each shared operation can do, said once: counters, answers, the latch, host access, the
agents' moves.
-/

namespace Sys2Proof.Machine

/-- Counting adds one to its own counter and leaves the other eleven. -/
theorem Counters.get_bump (k : Counters) (c c' : Counter) :
    (k.bump c).get c' = if c' = c then k.get c + 1 else k.get c' := by
  cases c <;> cases c' <;> rfl

@[simp] theorem Counters.get_bump_self (k : Counters) (c : Counter) :
    (k.bump c).get c = k.get c + 1 := by
  simp [Counters.get_bump]

/-- The counters are determined by their twelve values. -/
theorem Counters.ext_get {k k' : Counters} (h : ∀ c, k.get c = k'.get c) : k = k' := by
  obtain ⟨⟩ := k
  obtain ⟨⟩ := k'
  have h1 := h .rx
  have h2 := h .badHeader
  have h3 := h .truncated
  have h4 := h .poll
  have h5 := h .pollReply
  have h6 := h .output
  have h7 := h .other
  have h8 := h .writeOk
  have h9 := h .busBusy
  have h10 := h .timeout
  have h11 := h .replySent
  have h12 := h .replyFail
  simp only [Counters.get] at *
  subst_vars
  rfl

/-- The latch holds the datagram's bytes below `rx_len`, and what it held before above. -/
theorem State.latch_read (s : State) (d : Datagram) (a : Nat) :
    Memory.read (s.latch d).rxBuf a =
      if a < min d.bytes.length s.build.rxCap then d.bytes[a]? else Memory.read s.rxBuf a := by
  rw [State.latch_rxBuf, Memory.read_write]
  by_cases h : a < min d.bytes.length s.build.rxCap
  · have h' : a < s.build.rxCap := by omega
    rw [if_pos h, if_pos (by simp only [List.length_take]; omega), Nat.sub_zero,
      List.getElem?_take_of_lt h']
  · rw [if_neg h, if_neg (by simp only [List.length_take]; omega)]

/-- A latched datagram can be read back whole. -/
theorem State.latch_memRead {s : State} (h : Memory.wf s.rxBuf) (d : Datagram) :
    (s.latch d).memRead 0 (s.latch d).rxLen = some (d.bytes.take s.build.rxCap) := by
  refine (State.memRead_eq_some_iff (Memory.write_wf h _ _) _ _ _).2 ⟨by simp, ?_, fun k hk => ?_⟩
  · rw [State.latch_rxLen, List.length_take, Nat.min_comm]
  · rw [State.latch_rxLen] at hk
    rw [Nat.zero_add, State.latch_read, if_pos hk,
      List.getElem?_take_of_lt (by omega)]

/-- A host access is refused, or it is a read that only tells the host a register, or a write. -/
theorem hostAccess_cases {op : HostOp} {s : State} {r : Host.Outcome State Fault Refusal}
    (h : hostAccess op s = r) :
    r = .refused .hostAccess ∨
      (∃ off bytes, op = .read off bytes ∧ accessOk off bytes = true ∧
        r = .next { s with env := { s.env with rdata := s.readReg (regAt off) } }) ∨
      (∃ off bytes v, op = .write off bytes v ∧ accessOk off bytes = true ∧
        r = .next (s.writeReg (regAt off) v)) := by
  subst h
  cases op with
  | read off bytes =>
    simp only [hostAccess]
    split
    · rename_i h
      exact .inr (.inl ⟨off, bytes, rfl, h, rfl⟩)
    · exact .inl rfl
  | write off bytes v =>
    simp only [hostAccess]
    split
    · rename_i h
      exact .inr (.inr ⟨off, bytes, v, rfl, h, rfl⟩)
    · exact .inl rfl

/-- A register write does nothing, starts the block, or sets the configuration, the last two only in
CONFIG. -/
theorem State.writeReg_cases (s : State) (r : Reg) (v : Word) :
    s.writeReg r v = s ∨
      (s.fsm = .config ∧ r = .ctrl ∧ v.getLsbD 0 = true ∧ s.writeReg r v = s.goto .starting) ∨
      (s.fsm = .config ∧ r ≠ .ctrl ∧ s.writeReg r v = { s with cfg := s.cfg.write v r }) := by
  unfold State.writeReg
  split
  · rename_i hf
    split
    · rename_i hr
      split
      · rename_i hv
        exact .inr (.inl ⟨hf, hr, hv, rfl⟩)
      · exact .inl rfl
    · rename_i hr
      exact .inr (.inr ⟨hf, hr, rfl⟩)
  · exact .inl rfl

/-- A `Recv` that answers the fatal condition takes that condition and no datagram. -/
theorem Env.afterRecv_fatal {e : Env} (h : e.rxFatal = true) :
    e.afterRecv = { e with rxFatal := false } := by
  simp [Env.afterRecv, h]

/-- A `Recv` that answers a datagram takes the oldest one. -/
theorem Env.afterRecv_datagram {e : Env} {d : Datagram} {q : List Datagram} (h : e.rxFatal = false)
    (hq : e.rxq = d :: q) : e.afterRecv = { e with rxq := q } := by
  simp [Env.afterRecv, h, hq]

/-- A `Recv` changes what the collaborator holds and nothing else of the environment. -/
theorem Env.afterRecv_frame (e : Env) :
    e.afterRecv = { e with rxFatal := e.afterRecv.rxFatal, rxq := e.afterRecv.rxq } := by
  unfold Env.afterRecv
  split <;> rfl

/-- What a reset in the middle of a step leaves of the environment: a `Recv` may have
answered, the line and the sent datagrams gain at most what the step was sending; nothing else
changes. -/
theorem interruptedEnv_cases (carried : List Byte) (done : Bool) (s : State) :
    interruptedEnv carried done s = s.env ∨
      (s.fsm = .receiving ∧ interruptedEnv carried done s = s.env.afterRecv) ∨
      (s.fsm = .dispatching ∧ (∃ flags diag, s.cmd = .opPoll flags diag) ∧
        interruptedEnv carried done s =
          { s.env with sent := s.env.sent ++ [(replyDst s.rxSrc, buildReply s.cfg)] }) ∨
      (s.fsm = .dispatching ∧ (∃ seq uni n, s.cmd = .opOutput seq uni n) ∧
        interruptedEnv carried done s = { s.env with line := s.env.line ++ carried }) := by
  unfold interruptedEnv
  split <;> (try split) <;> (try split) <;> simp_all

/-- A reset in the middle of a step leaves the history empty, but for the entry of an interrupted `Send`
where there is one. -/
theorem interruptedHist_cases (entry : Option SendAnswer) (s : State) :
    interruptedHist entry s = [] ∨
      ∃ r, entry = some r ∧ s.fsm = .dispatching ∧ (∃ flags diag, s.cmd = .opPoll flags diag) ∧
        interruptedHist entry s = [.reply (replyDst s.rxSrc) (buildReply s.cfg) r] := by
  unfold interruptedHist
  cases entry <;> split <;> (try split) <;> simp_all

end Sys2Proof.Machine
end

