-- ==== Sys2Proof/Laws/PerInstr.lean ====
section
/-!
SUPPORT. The per-instruction family of LAWS.json: what each command's datagram looks like to the opcode
table.
-/

namespace Sys2Proof.Laws

/-- The datagram of a command carries the command's opcode at offsets 8 and 9, low byte first, after the
identifier, and is as long as the table's `min_length` and its channel data. -/
def OpcodeInPlace.Statement (i : Instr) : Prop :=
  ∀ (phys : Byte) (data : List Byte),
    (encodeWith phys data i).take 8 = artNetId ∧ u16le (encodeWith phys data i) 8 = i.opcode ∧
      i.minLength ≤ (encodeWith phys data i).length

theorem append_low_high (h : Half) : (highByte h ++ lowByte h : BitVec 16) = h := by
  apply BitVec.eq_of_getLsbD_eq
  intro k hk
  simp only [highByte, lowByte, BitVec.getLsbD_append, BitVec.getLsbD_extractLsb']
  by_cases h8 : k < 8
  · simp [h8]
  · have h2 : k - 8 < 8 := by omega
    have h3 : 8 + (k - 8) = k := by omega
    simp [h8, h2, h3]

theorem OpcodeInPlace.opPoll (flags diag : Byte) :
    OpcodeInPlace.Statement (.opPoll flags diag) := by
  intro phys data
  exact ⟨rfl, append_low_high 0x2000, by simp [encodeWith, header, artNetId, Instr.minLength]⟩

theorem OpcodeInPlace.opPollReply : OpcodeInPlace.Statement .opPollReply := by
  intro phys data
  exact ⟨rfl, append_low_high 0x2100, by simp [encodeWith, header, artNetId, Instr.minLength]⟩

theorem OpcodeInPlace.opOutput (seq : Byte) (uni : Half) (dataLen : BitVec 10) :
    OpcodeInPlace.Statement (.opOutput seq uni dataLen) := by
  intro phys data
  exact ⟨rfl, append_low_high 0x5000, by simp [encodeWith, header, artNetId, Instr.minLength]⟩

theorem OpcodeInPlace.other (opcode : Half) : OpcodeInPlace.Statement (.other opcode) := by
  intro phys data
  exact ⟨rfl, append_low_high opcode, by simp [encodeWith, header, artNetId, Instr.minLength]⟩

end Sys2Proof.Laws
end

