-- ==== Sys2Proof/Laws/Registers.lean ====
section
/-!
SUPPORT. The register map as facts about single offsets: each row of the map is found, and an offset
with no row is unmapped.
-/

namespace Sys2Proof.Machine

/-- Every row of the map is what its offset names: no two rows share an offset. -/
theorem regAt_of_mem {p : Nat × Reg} (h : p ∈ regMap) : regAt p.1 = p.2 := by
  have all : ∀ p ∈ regMap, regAt p.1 = p.2 := by decide
  exact all p h

/-- An offset names a row of the map, or it is unmapped and has no row. -/
theorem regAt_cases (off : Nat) :
    (off, regAt off) ∈ regMap ∨ (regAt off = .unmapped ∧ ∀ p ∈ regMap, p.1 ≠ off) := by
  by_cases h : ∃ p ∈ regMap, p.1 = off
  · obtain ⟨p, hp, rfl⟩ := h
    exact .inl (by rw [regAt_of_mem hp]; exact hp)
  · have h' : ∀ p ∈ regMap, p.1 ≠ off := fun p hp e => h ⟨p, hp, e⟩
    refine .inr ⟨?_, h'⟩
    have : regMap.lookup off = none := by
      rw [List.lookup_eq_none_iff]
      intro p hp
      simpa using fun e => h' p hp e.symm
    simp [regAt, this]

theorem regAt_shortName {w : Nat} (h : w < 5) : regAt (0x040 + 4 * w) = .shortName w := by
  have all : ∀ w < 5, regAt (0x040 + 4 * w) = .shortName w := by decide
  exact all w h

theorem regAt_longName {w : Nat} (h : w < 16) : regAt (0x080 + 4 * w) = .longName w := by
  have all : ∀ w < 16, regAt (0x080 + 4 * w) = .longName w := by decide
  exact all w h

end Sys2Proof.Machine
end

