-- ==== Sys2Proof/Laws/Step.lean ====
section
/-!
SUPPORT. What a step can do, said once: an inversion lemma for each step of the block, for the router
and for the whole step.
-/

namespace Sys2Proof.Machine

/-- What a command can do where it gives a next state. -/
theorem exec_cases {i : Instr} {s t : State} (h : exec i s = .next t) :
    (∃ flags diag, i = .opPoll flags diag ∧
      t = ((s.send (replyDst s.rxSrc) (buildReply s.cfg)).count (sendCounter s.sendAnswer)).finish
        (sendEvent s.sendAnswer)) ∨
    (i = .opPollReply ∧ t = s.finish .pollReplyIgnored) ∨
    (∃ seq uni n data, i = .opOutput seq uni n ∧ s.channelData n = some data ∧
      t = ((s.transmit (frameOf s.build.encMode s.build.trailerLen data)).count
        (writeCounter (writeResult s.transmitAnswer))).finish
          (writeEvent (writeResult s.transmitAnswer))) ∨
    (∃ op, i = .other op ∧ t = s.finish .otherIgnored) := by
  cases i with
  | opPoll flags diag =>
    simp only [exec, execOpPoll, Host.Outcome.next.injEq] at h
    exact .inl ⟨flags, diag, rfl, h.symm⟩
  | opPollReply =>
    simp only [exec, execOpPollReply, Host.Outcome.next.injEq] at h
    exact .inr (.inl ⟨rfl, h.symm⟩)
  | opOutput seq uni n =>
    simp only [exec, execOpOutput] at h
    split at h
    · cases h
    · rename_i data hd
      simp only [Host.Outcome.next.injEq] at h
      exact .inr (.inr (.inl ⟨seq, uni, n, data, rfl, hd, h.symm⟩))
  | other op =>
    simp only [exec, execOther, Host.Outcome.next.injEq] at h
    exact .inr (.inr (.inr ⟨op, rfl, h.symm⟩))

/-- What the STARTING step can do. -/
theorem startStep_cases (s : State) :
    (s.env.netReady = false ∧ startStep s = s.halt .notReadyNet) ∨
    (s.env.netReady = true ∧ s.env.sinkReady = false ∧ startStep s = s.halt .notReadySink) ∨
    (s.env.netReady = true ∧ s.env.sinkReady = true ∧ clkOk s.build s.cfg.serClkHz = false ∧
      startStep s = s.halt .clockInvalid) ∨
    (s.env.netReady = true ∧ s.env.sinkReady = true ∧ clkOk s.build s.cfg.serClkHz = true ∧
      ((s.bindAnswer = .ok ∧ startStep s = s.bind.goto .idle) ∨
        (s.bindAnswer = .failed ∧ startStep s = s.bind.halt .bindFailed))) := by
  unfold startStep
  cases h1 : s.env.netReady <;> cases h2 : s.env.sinkReady <;>
    cases h3 : clkOk s.build s.cfg.serClkHz <;> cases h4 : s.bindAnswer <;> simp

/-- What the RECEIVING step can do where it gives a next state. -/
theorem receiveStep_cases {s t : State} (h : receiveStep s = .next t) :
    (s.env.rxFatal = true ∧
      t = { s with env := { s.env with rxFatal := false } }.halt .recvFatal) ∨
    (∃ d q, s.env.rxFatal = false ∧ s.env.rxq = d :: q ∧
      t = (({ s with env := { s.env with rxq := q } }.latch d).count .rx).goto .decoding) := by
  unfold receiveStep at h
  split at h
  · rename_i hf
    simp only [Host.Outcome.next.injEq] at h
    exact .inl ⟨hf, by rw [← h, Env.afterRecv_fatal hf]⟩
  · rename_i hf
    have hf : s.env.rxFatal = false := by simpa using hf
    split at h
    · cases h
    · rename_i d q hq
      simp only [Host.Outcome.next.injEq] at h
      exact .inr ⟨d, q, hf, hq, by rw [← h, Env.afterRecv_datagram hf hq]⟩

/-- What the DECODING step can do where it gives a next state. -/
theorem decodeStep_cases {s t : State} (h : decodeStep s = .next t) :
    ∃ buf, s.memRead 0 s.rxLen = some buf ∧
      ((decode s.build.vchkPollReply buf = .err .badHeader ∧ t = s.contain .badHeader .badHeader) ∨
        (decode s.build.vchkPollReply buf = .err .truncated ∧
          t = { s with lastOpcode := u16le buf 8 }.contain .truncated .truncated) ∨
        ∃ i, decode s.build.vchkPollReply buf = .ok i ∧ t = s.accept i) := by
  unfold decodeStep at h
  split at h
  · cases h
  · rename_i buf hbuf
    simp only [Host.Outcome.next.injEq] at h
    refine ⟨buf, hbuf, ?_⟩
    cases hd : decode s.build.vchkPollReply buf with
    | ok i => exact .inr (.inr ⟨i, rfl, by rw [← h, hd]; rfl⟩)
    | err e =>
      cases e with
      | badHeader => exact .inl ⟨rfl, by rw [← h, hd]; rfl⟩
      | truncated => exact .inr (.inl ⟨rfl, by rw [← h, hd]; rfl⟩)

/-- What a step of the block can do where it gives a next state, by the FSM state it starts in. -/
theorem blockStep_cases {s t : State} (h : blockStep s = .next t) :
    (s.fsm = .starting ∧ t = startStep s) ∨
    (s.fsm = .idle ∧ rxPending s = true ∧ t = s.goto .receiving) ∨
    (s.fsm = .receiving ∧ receiveStep s = .next t) ∨
    (s.fsm = .decoding ∧ decodeStep s = .next t) ∨
    (s.fsm = .dispatching ∧ exec s.cmd s = .next t) := by
  unfold blockStep at h
  split at h
  · cases h
  · rename_i hf
    simp only [Host.Outcome.next.injEq] at h
    exact .inl ⟨hf, h.symm⟩
  · rename_i hf
    unfold idleStep at h
    split at h
    · rename_i hp
      simp only [Host.Outcome.next.injEq] at h
      exact .inr (.inl ⟨hf, hp, h.symm⟩)
    · cases h
  · rename_i hf
    exact .inr (.inr (.inl ⟨hf, h⟩))
  · rename_i hf
    exact .inr (.inr (.inr (.inl ⟨hf, h⟩)))
  · rename_i hf
    exact .inr (.inr (.inr (.inr ⟨hf, h⟩)))
  · cases h

/-- What a step can do: the block's step, on the state with its turn taken off the agenda, or the move
of an agent. -/
theorem step_cases {s : State} {r : Host.Outcome State Fault Refusal} (h : step s = r) :
    (s.env.agenda = [] ∧ blockStep s = r) ∨
    (∃ ms, s.env.agenda = .block :: ms ∧ blockStep (s.withAgenda ms) = r) ∨
    (∃ m ms, s.env.agenda = m :: ms ∧ agentMove m (s.withAgenda ms) = r) := by
  unfold step at h
  split at h
  · rename_i ha
    exact .inl ⟨ha, h⟩
  · rename_i m ms ha
    split at h
    · rename_i hm
      exact .inr (.inl ⟨ms, by rw [ha, hm.1], h⟩)
    · exact .inr (.inr ⟨m, ms, ha, h⟩)

/-- With an empty agenda a step is the block's step. -/
theorem step_of_agenda_nil {s : State} (h : s.env.agenda = []) : step s = blockStep s := by
  unfold step
  rw [h]

/-- With another agent's move first a step is that move. -/
theorem step_of_move {s : State} {m : Move} {ms : List Move} (h : s.env.agenda = m :: ms)
    (hm : m ≠ .block) : step s = agentMove m (s.withAgenda ms) := by
  unfold step
  rw [h]
  simp [hm]

end Sys2Proof.Machine
end

