-- ==== Sys2Proof/Tests/Slice0.lean ====
section
/-!
SUPPORT. Small tests, each on one operation or one step, with expected values from spec/95_test_vectors.md
(the vector is named beside each) or from the rule cited; and, for each statement with hypotheses, a
witness: a concrete state and operands that meet all of them.
-/

namespace Sys2Proof.Tests

open Sys2Proof Sys2Proof.Machine

/-! ### Helpers -/

/-- A build with every parameter concrete: R8's values, and CLK_OK(3 200 000) = true as the vectors of
95_test_vectors.md take it. -/
def build : Build where
  rxCap := 1024
  vchkPollReply := true
  encMode := .direct
  trailerLen := 0
  clkRanges := [(3200000, 3200000)]
  rxqDepth := 2

/-- The identity the boot sequence B0 of 95_test_vectors.md writes. -/
def cfg0 : NodeCfg :=
  { serClkHz := 3200000, nodeIp := 0xC0A80132, nodeMacHi := 0x02000000, nodeMacLo := 0x0001
    shortName := Vector.ofFn fun k => [0x41, 0x4E, 0x53, 0x4C, 0x43].getD k.val 0 }

/-- The start state S0 of 95_test_vectors.md. -/
def s0 : State :=
  { State.reset with
    fsm := .idle, build := build, cfg := cfg0, hist := [.bind .ok]
    env := { netReady := true, sinkReady := true } }

/-- Reset with a concrete build and both inputs at 1. -/
def r0 : State := { State.reset with build := build, env := { netReady := true, sinkReady := true } }

/-- S0 with a datagram in the latch, in a given FSM state. -/
def holding (f : Fsm) (buf : List Byte) : State :=
  { s0 with fsm := f, rxBuf := Memory.cellsFrom 0 buf, rxLen := buf.length, rxSrc := some ⟨0xC0A8010A, 6454⟩ }

/-- A state whose agenda is one move. -/
def facing (m : Move) (s : State) : State := { s with env := { s.env with agenda := [m] } }

/-- The next state of a step, if it has one. -/
def nextOf : Host.Outcome State Fault Refusal → Option State
  | .next s => some s
  | .fault _ => none
  | .refused _ => none

/-- How a step stopped, if it did. -/
def faultOf : Host.Outcome State Fault Refusal → Option Fault
  | .next _ => none
  | .fault f => some f
  | .refused _ => none

/-- The bytes of `DMX [FF 00 80]` (R87). -/
def dmx3 : List Byte :=
  [0x41, 0x72, 0x74, 0x2D, 0x4E, 0x65, 0x74, 0x00, 0x00, 0x50, 0x00, 0x0E, 0x00, 0x00, 0x00, 0x00,
    0x00, 0x03, 0xFF, 0x00, 0x80]

/-- The bytes of `POLL` (R87). -/
def poll : List Byte :=
  [0x41, 0x72, 0x74, 0x2D, 0x4E, 0x65, 0x74, 0x00, 0x00, 0x20, 0x00, 0x0E, 0x00, 0x00]

/-- The 18 bytes before the channel data of an Output that declares `hi, lo` channels. -/
def dmxHead (hi lo : Byte) : List Byte :=
  [0x41, 0x72, 0x74, 0x2D, 0x4E, 0x65, 0x74, 0x00, 0x00, 0x50, 0x00, 0x0E, 0, 0, 0, 0, hi, lo]

/-! ### WellFormed: each check refuses an ill-formed term -/

theorem test_wf_refuses_513_channels : (Instr.opOutput 0 0 513).wf = false := by decide
theorem test_wf_accepts_512_channels : (Instr.opOutput 0 0 512).wf = true := by decide
theorem test_wf_refuses_other_poll : (Instr.other 0x2000).wf = false := by decide
theorem test_wf_refuses_other_pollReply : (Instr.other 0x2100).wf = false := by decide
theorem test_wf_refuses_other_output : (Instr.other 0x5000).wf = false := by decide
theorem test_wf_accepts_other : (Instr.other 0x5200).wf = true := by decide

/-! ### Decoding: datagrams written out byte by byte (30_encoding.md; 95_test_vectors.md sections 1, 2) -/

/-- V-D3: bytes from offset 14 on are ignored. -/
theorem test_decode_poll :
    decode true [0x41, 0x72, 0x74, 0x2D, 0x4E, 0x65, 0x74, 0x00, 0x00, 0x20, 0x00, 0x0E, 0xFF, 0x7F, 1, 2] =
      .ok (.opPoll 0xFF 0x7F) := by decide
/-- V-H11, V-D1: a Poll without both operand bytes. -/
theorem test_decode_poll_short : decode true (poll.take 13) = .err .truncated := by decide
/-- V-R3 and V-R4: a real ArtPollReply, with and without the version check. -/
theorem test_decode_pollReply_version :
    decode true [0x41, 0x72, 0x74, 0x2D, 0x4E, 0x65, 0x74, 0x00, 0x00, 0x21, 0xC0, 0xA8, 0x01, 0x0A] =
        .err .badHeader ∧
      decode false [0x41, 0x72, 0x74, 0x2D, 0x4E, 0x65, 0x74, 0x00, 0x00, 0x21, 0xC0, 0xA8, 0x01, 0x0A] =
        .ok .opPollReply := by decide
/-- V-O9: sequence, universe low byte first, Physical not read. -/
theorem test_decode_output :
    decode true [0x41, 0x72, 0x74, 0x2D, 0x4E, 0x65, 0x74, 0x00, 0x00, 0x50, 0x00, 0x0E, 0x2A, 0x99, 0x34,
      0x12, 0x00, 0x01, 0x10] = .ok (.opOutput 0x2A 0x1234 1) := by decide
/-- V-O7, V-O6: L = 65535 and L = 513 are Truncated. -/
theorem test_decode_output_over_512 :
    decode true (dmxHead 0xFF 0xFF) = .err .truncated ∧
      decode true (dmxHead 0x02 0x01 ++ List.replicate 513 0) = .err .truncated := by decide +kernel
/-- V-O4, V-O5: L = 512 with 530 and with 529 bytes. -/
theorem test_decode_output_512 :
    decode true (dmxHead 2 0 ++ List.replicate 512 0) = .ok (.opOutput 0 0 512) ∧
      decode true (dmxHead 2 0 ++ List.replicate 511 0) = .err .truncated := by decide +kernel
/-- V-X2, V-X4: the byte-swapped opcode and a near miss are Other. -/
theorem test_decode_other :
    decode true [0x41, 0x72, 0x74, 0x2D, 0x4E, 0x65, 0x74, 0x00, 0x50, 0x00, 0x00, 0x0E] =
        .ok (.other 0x0050) ∧
      decode true [0x41, 0x72, 0x74, 0x2D, 0x4E, 0x65, 0x74, 0x00, 0x01, 0x50, 0x00, 0x0E] =
        .ok (.other 0x5001) := by decide
/-- V-H1, V-H3, V-H5, V-H6, V-H10: header errors, before any length error. -/
theorem test_decode_badHeader :
    decode true [] = .err .badHeader ∧ decode true (poll.take 8) = .err .badHeader ∧
      decode true (poll.take 11) = .err .badHeader ∧
      decode true [0x41, 0x72, 0x74, 0x2D, 0x4E, 0x65, 0x74, 0x00, 0x00, 0x20, 0x00, 0x0D, 0, 0] =
        .err .badHeader ∧
      decode true [0x61, 0x72, 0x74, 0x2D, 0x4E, 0x65, 0x74, 0x00, 0x00, 0x50, 0x00, 0x0E, 0, 0, 0, 0, 0, 3] =
        .err .badHeader := by decide
/-- R87: the encoder writes the datagrams of the vectors. -/
theorem test_encode :
    encode (.opPoll 0 0) = poll ∧ encodeWith 0 [0xFF, 0x00, 0x80] (.opOutput 0 0 3) = dmx3 := by decide
/-- The opcode table's rows, numbered as the table numbers them. -/
theorem test_table_words :
    decodeTableWord 16 0x2000 = some (.opPoll 0 0) ∧ decodeTableWord 16 0x2100 = some .opPollReply ∧
      decodeTableWord 16 0x5000 = some (.opOutput 0 0 0) ∧ decodeTableWord 16 0x5200 = some (.other 0x5200) ∧
      decodeTableWord 0 0 = some (.other 0) := by decide
/-- The first step after reset runs the table's word. -/
theorem test_first_step_runs_table_word :
    (nextOf (step (State.reset.withFetchWord 16 0x2100))).map (·.lastEvent) = some .pollReplyIgnored ∧
      (nextOf (step (State.reset.withFetchWord 16 0x5000))).isSome = true ∧
      (nextOf (step (State.reset.withFetchWord 16 0x2000))).isSome = true := by decide

/-! ### The commands -/

/-- V-P1: the reply to a Poll, its counter, its event, and the state after it. -/
theorem test_poll_replies :
    (nextOf (exec (.opPoll 0 0) { holding .dispatching poll with env := { s0.env with sendAns := [.ok] } })).map
      (fun t => (t.hist, t.cnt.replySent, t.cnt.replyFail, t.lastEvent, t.fsm)) =
    some ([.bind .ok, .reply ⟨0xC0A8010A, 6454⟩ (buildReply cfg0) .ok], 1, 0, .pollReplied, .idle) := by
  decide +kernel
/-- V-P3, V-P4: broadcast without a source, and a failed send. -/
theorem test_poll_broadcasts_and_fails :
    (nextOf (exec (.opPoll 0xFF 0xFF) { s0 with env := { s0.env with sendAns := [.fail] } })).map
      (fun t => (t.hist.tail, t.cnt.replyFail, t.lastEvent, t.env.sent.length)) =
    some ([.reply ⟨0xFFFFFFFF, 6454⟩ (buildReply cfg0) .fail], 1, .pollReplyFailed, 0) := by
  decide +kernel
/-- REPLY0 of 95_test_vectors.md: length, offsets 0 to 31, 172 to 175, 201 to 206. -/
theorem test_reply0 :
    (buildReply cfg0).length = 239 ∧
      (buildReply cfg0).take 32 =
        [0x41, 0x72, 0x74, 0x2D, 0x4E, 0x65, 0x74, 0x00, 0x00, 0x21, 0xC0, 0xA8, 0x01, 0x32, 0x36, 0x19,
          0, 0, 0, 0, 0, 0, 0, 0, 0, 0, 0x41, 0x4E, 0x53, 0x4C, 0x43, 0x00] ∧
      ((buildReply cfg0).drop 172).take 4 = [0x00, 0x01, 0x80, 0x00] ∧
      ((buildReply cfg0).drop 201).take 6 = [0x02, 0x00, 0x00, 0x00, 0x00, 0x01] := by decide +kernel
/-- V-P6: port counts 6, 0 and 0x0102. -/
theorem test_reply_port_types :
    portTypes 6 = [0x80, 0x80, 0x80, 0x80] ∧ portTypes 0 = [0, 0, 0, 0] ∧
      portTypes 0x0102 = [0x80, 0x80, 0x80, 0x80] := by decide
/-- 95_test_vectors.md section 2.4: a PollReply leaves H and sets LAST_EVENT = 3. -/
theorem test_pollReply_ignored :
    (nextOf (exec .opPollReply s0)).map (fun t => (t.hist, t.lastEvent.code)) = some ([.bind .ok], 3) := by
  decide
/-- V-W1: the frame on the line. -/
theorem test_output_written :
    (nextOf (exec (.opOutput 0 0 3) { holding .dispatching dmx3 with env := { s0.env with txAns := [.ok] } })).map
      (fun t => (t.hist.tail, t.cnt.writeOk, t.lastEvent.code, t.env.line)) =
    some ([.frame [0xFF, 0x00, 0x80] .ok [0xFF, 0x00, 0x80]], 1, 4, [0xFF, 0x00, 0x80]) := by decide
/-- V-W2: a busy bus. -/
theorem test_output_busy :
    (nextOf (exec (.opOutput 0 0 3)
      { holding .dispatching dmx3 with env := { s0.env with txAns := [.busBusy [0xFF]] } })).map
      (fun t => (t.hist.tail, t.cnt.busBusy, t.cnt.writeOk, t.lastEvent.code)) =
    some ([.frame [0xFF, 0x00, 0x80] .busBusy [0xFF]], 1, 0, 5) := by decide
/-- 95_test_vectors.md section 2.5: Other leaves H and sets LAST_EVENT = 7. -/
theorem test_other_ignored :
    (nextOf (exec (.other 0x5200) s0)).map (fun t => (t.hist, t.lastEvent.code, t.fsm)) =
      some ([.bind .ok], 7, .idle) := by decide

/-! ### Frames (95_test_vectors.md section 2.6) -/

/-- V-E2, V-E4. -/
theorem test_frame_direct :
    frameOf .direct 2 [0xFF, 0x00, 0x80] = [0xFF, 0x00, 0x80, 0x00, 0x00] ∧
      frameOf .direct 3 [] = [0x00, 0x00, 0x00] := by decide
/-- V-E12, V-E9. -/
theorem test_frame_spi :
    frameOf .ws2812Spi4 2 [0xFF, 0x00, 0x80] =
        [0xEE, 0xEE, 0xEE, 0xEE, 0x88, 0x88, 0x88, 0x88, 0xE8, 0x88, 0x88, 0x88, 0x00, 0x00] ∧
      frameOf .ws2812Spi4 0 [0xA5] = [0xE8, 0xE8, 0x8E, 0x8E] := by decide
/-- R56: 0x80 is sent with its one first; section 2.6: V-E12 takes 112 bit periods. -/
theorem test_line_bits :
    serialBits [0x80] = [true, false, false, false, false, false, false, false] ∧
      frameBitPeriods (frameOf .ws2812Spi4 2 [0xFF, 0x00, 0x80]) = 112 := by decide
/-- R161: 2048 bytes at 3 200 000 Hz last 5.12 ms. -/
theorem test_frame_seconds : frameSeconds (List.replicate 2048 0) 3200000 = 512 / 100000 := by
  have h : (3200000 : Word).toNat = 3200000 := by decide
  simp only [frameSeconds, frameBitPeriods, List.length_replicate, h]
  norm_num
/-- R9: no third encoding mode. -/
theorem test_enc_mode_codes :
    encModeOfCode 0 = some .direct ∧ encModeOfCode 1 = some .ws2812Spi4 ∧ encModeOfCode 2 = none := by decide

/-! ### Startup, receiving, decoding (95_test_vectors.md sections 2.1, 2.9) -/

/-- V-F1, V-F2, V-F3: the startup refusals in order. -/
theorem test_startup_refusals :
    (nextOf (step { r0 with fsm := .starting, env := {} })).map State.status = some 0x0000010F ∧
      (nextOf (step { r0 with fsm := .starting, env := { netReady := true } })).map State.status =
        some 0x0100020F ∧
      (nextOf (step { r0 with fsm := .starting })).map State.status = some 0x0300030F := by decide
/-- V-F4, V-F5: the bind. -/
theorem test_startup_bind :
    (nextOf (step { r0 with fsm := .starting, cfg := cfg0, env := { r0.env with bindAns := [.failed] } })).map
        (fun t => (t.status, t.hist)) = some (0x0300040F, [.bind .failed]) ∧
      (nextOf (step { r0 with fsm := .starting, cfg := cfg0, env := { r0.env with bindAns := [.ok] } })).map
        (fun t => (t.status, t.hist)) = some (0x03000002, [.bind .ok]) := by decide
/-- V-F6: a fatal receive, the queue left alone and the condition answered. -/
theorem test_recv_fatal :
    (nextOf (step { s0 with fsm := .receiving, env := { s0.env with rxFatal := true, rxq := [⟨poll, none⟩] } })).map
      (fun t => (t.status, t.cnt.rx, t.env.rxq.length, t.env.rxFatal)) =
    some (0x0300050F, 0, 1, false) := by decide
/-- V-F7: no datagram, no step. -/
theorem test_idle_waits : faultOf (step s0) = some .idleWaits := by decide
/-- R120: a datagram longer than the buffer is cut; the byte past a shorter one stays. -/
theorem test_receive_cuts :
    (nextOf (step { s0 with
      fsm := .receiving, build := { build with rxCap := 2 }, rxBuf := [(0, 9), (5, 7)]
      env := { s0.env with rxq := [⟨[1, 2, 3], none⟩] } })).map
      (fun t => (t.rxBuf, t.rxLen, t.rxSrc, t.cnt.rx, t.fsm)) =
    some ([(0, 1), (1, 2), (5, 7)], 2, none, 1, .decoding) := by decide
/-- V-S4: a bad header is counted and leaves LAST_OPCODE alone. -/
theorem test_decoding_badHeader :
    (nextOf (step (holding .decoding [0x41, 0x72, 0x74, 0x2D, 0x4E, 0x65, 0x74, 0x58, 0x00, 0x50]))).map
      (fun t => (t.status, t.cnt.badHeader, t.lastOpcode)) = some (0x03080002, 1, 0) := by decide
/-- V-S6: a truncated Output is counted and shows its opcode, not its length. -/
theorem test_decoding_truncated :
    (nextOf (step (holding .decoding (dmx3.take 20)))).map
      (fun t => (t.cnt.truncated, t.lastEvent.code, t.lastOpcode, t.lastOutLen)) = some (1, 9, 0x5000, 0) := by
  decide
/-- 95_test_vectors.md after V-W6: the LAST_OUT registers. -/
theorem test_decoding_output :
    (nextOf (step (holding .decoding [0x41, 0x72, 0x74, 0x2D, 0x4E, 0x65, 0x74, 0x00, 0x00, 0x50, 0x00, 0x0E,
      0x2A, 0x99, 0x34, 0x12, 0x00, 0x01, 0x10]))).map
      (fun t => (t.lastOpcode, t.lastOutUniverse, t.lastOutSeq, t.lastOutLen)) =
    some (0x5000, 0x1234, 0x2A, 1) := by decide

/-! ### Host access (95_test_vectors.md section 2.10) -/

/-- What the host reads after a write of another word, from a state. -/
def writeThenRead (s : State) (off : Nat) (v : Word) (off' : Nat) : Option Word :=
  (nextOf (step (facing (.host (.write off 4 v)) s))).map fun t => t.readReg (regAt off')

/-- V-G1, V-G2. -/
theorem test_reset_reads : r0.readReg (regAt 0x004) = 0x03000000 ∧ r0.readReg (regAt 0x018) = 1 := by decide
/-- V-G3, V-G4, V-G5: reserved bits. -/
theorem test_reserved_bits :
    writeThenRead r0 0x014 0xAABBCCDD 0x014 = some 0xAABB0000 ∧
      writeThenRead r0 0x018 0x12345678 0x018 = some 0x00005678 ∧
      writeThenRead r0 0x050 0xFFFFFFFF 0x050 = some 0x0000FFFF := by decide
/-- R40: byte 0 in bits 7:0, the other words left alone. -/
theorem test_name_words :
    writeThenRead r0 0x084 0x44434241 0x084 = some 0x44434241 ∧
      writeThenRead r0 0x084 0x44434241 0x080 = some 0 := by decide
/-- V-G6, V-G11: START needs bit 0 and CONFIG. -/
theorem test_start :
    writeThenRead r0 0x000 0xFFFFFFFE 0x004 = some 0x03000000 ∧
      writeThenRead r0 0x000 1 0x004 = some 0x03000001 ∧
      writeThenRead s0 0x000 1 0x004 = some 0x03000002 := by decide
/-- V-G7, V-G8, V-G9, V-G10. -/
theorem test_writes_without_effect :
    writeThenRead r0 0x1FC 5 0x1FC = some 0 ∧ writeThenRead r0 0x100 7 0x100 = some 0 ∧
      writeThenRead r0 0x004 0xFFFFFFFF 0x004 = some 0x03000000 ∧
      writeThenRead s0 0x00C 0x0A000001 0x00C = some 0xC0A80132 := by decide
/-- V-G12: refused accesses. -/
theorem test_access_refused :
    accessOk 0x002 4 = false ∧ accessOk 0x004 2 = false ∧ accessOk 0x200 4 = false ∧
      accessOk 0x1FC 4 = true := by decide
/-- V-F8: the inputs are live. -/
theorem test_input_live :
    (nextOf (step (facing (.setNetReady false) s0))).map State.status = some 0x02000002 := by decide
/-- R41: 0xFFFF_FFFF + 1 = 0 (V-C1). -/
theorem test_counter_wraps : (Counters.bump { rx := 0xFFFFFFFF } .rx).rx = 0 := by decide
/-- R150, 93 U23: after a reset during a Send the history holds the Reply entry, or it does not. -/
theorem test_reset_during_send :
    (nextOf (step (facing (.resetMid [] true (some .ok)) (holding .dispatching poll)))).map
        (fun t => (t.fsm, t.hist.length, t.env.sent.length, t.cnt.replySent)) = some (.config, 1, 1, 0) ∧
      (nextOf (step (facing (.resetMid [] true none) (holding .dispatching poll)))).map
        (fun t => (t.hist.length, t.env.sent.length)) = some (0, 1) := by decide +kernel
/-- R148, R150: a reset keeps the queue and the line and forgets the history. -/
theorem test_reset_keeps_environment :
    (nextOf (step (facing .reset { s0 with env := { s0.env with rxq := [⟨poll, none⟩], line := [1] } }))).map
      (fun t => (t.fsm, t.hist, t.env.rxq.length, t.env.line, t.status)) =
    some (.config, [], 1, [1], 0x03000000) := by decide
/-- R45: a full queue drops. -/
theorem test_arrival_dropped :
    (nextOf (step (facing (.arrive ⟨[3], none⟩)
      { s0 with env := { s0.env with rxq := [⟨[1], none⟩, ⟨[2], none⟩] } }))).map
      (fun t => t.env.rxq.map (·.bytes)) = some [[1], [2]] := by decide

/-! ### Witnesses: the hypotheses of each statement are met -/

theorem witness_EncodedCommandDecodesToItself :
    (Instr.opOutput 1 2 512).wf = true ∧
      (List.replicate 512 (0 : Byte)).length = (Instr.opOutput 1 2 512).channels := by decide +kernel
theorem witness_AcceptedDatagramIsAnEncoding : decode true dmx3 = .ok (.opOutput 0 0 3) := by decide
theorem witness_EveryOpcodeWordRunsItsRow : 0xFFFF < 65536 ∧ 18 ≤ s0.build.rxCap := by decide
theorem witness_BadHeaderDatagramIsDropped_short :
    Decoding (holding .decoding (poll.take 11)) (poll.take 11) ∧ ¬ HeaderValid true (poll.take 11) := by
  unfold Decoding HeaderValid; decide
theorem witness_BadHeaderDatagramIsDropped_valid :
    Decoding (holding .decoding (poll.take 12)) (poll.take 12) ∧ HeaderValid true (poll.take 12) := by
  unfold Decoding HeaderValid; decide
theorem witness_PollDatagramDecodes_short :
    Decoding (holding .decoding (poll.take 13)) (poll.take 13) ∧ HeaderValid true (poll.take 13) ∧
      leAt (poll.take 13) 8 = 0x2000 ∧ (poll.take 13).length < 14 := by
  unfold Decoding HeaderValid; decide
theorem witness_PollDatagramDecodes_whole :
    Decoding (holding .decoding poll) poll ∧ HeaderValid true poll ∧ leAt poll 8 = 0x2000 ∧
      14 ≤ poll.length := by
  unfold Decoding HeaderValid; decide
theorem witness_PollReplyDatagramDecodes :
    let buf := encode .opPollReply
    Decoding (holding .decoding buf) buf ∧ HeaderValid true buf ∧ leAt buf 8 = 0x2100 := by
  unfold Decoding HeaderValid; decide
theorem witness_OutputLengthIsValidated_noLength :
    let buf := (dmxHead 0 0).take 17
    Decoding (holding .decoding buf) buf ∧ HeaderValid true buf ∧ leAt buf 8 = 0x5000 ∧ buf.length < 18 := by
  unfold Decoding HeaderValid; decide
theorem witness_OutputLengthIsValidated_over512 :
    let buf := dmxHead 2 1
    Decoding (holding .decoding buf) buf ∧ HeaderValid true buf ∧ leAt buf 8 = 0x5000 ∧
      512 < beAt buf 16 := by
  unfold Decoding HeaderValid; decide
theorem witness_OutputLengthIsValidated_cut :
    let buf := dmx3.take 20
    Decoding (holding .decoding buf) buf ∧ HeaderValid true buf ∧ leAt buf 8 = 0x5000 ∧
      buf.length < 18 + beAt buf 16 := by
  unfold Decoding HeaderValid; decide
theorem witness_OutputDatagramDecodes_empty :
    let buf := dmxHead 0 0
    Decoding (holding .decoding buf) buf ∧ HeaderValid true buf ∧ leAt buf 8 = 0x5000 ∧
      18 ≤ buf.length ∧ beAt buf 16 ≤ 512 ∧ 18 + beAt buf 16 ≤ buf.length := by
  unfold Decoding HeaderValid; decide
theorem witness_OutputDatagramDecodes_full :
    let buf := dmxHead 2 0 ++ List.replicate 512 7
    Decoding (holding .decoding buf) buf ∧ HeaderValid true buf ∧ leAt buf 8 = 0x5000 ∧
      18 ≤ buf.length ∧ beAt buf 16 ≤ 512 ∧ 18 + beAt buf 16 ≤ buf.length := by
  unfold Decoding HeaderValid; decide +kernel
theorem witness_OtherDatagramDecodes :
    let buf := encode (.other 0x5001)
    Decoding (holding .decoding buf) buf ∧ HeaderValid true buf ∧ leAt buf 8 ≠ 0x2000 ∧
      leAt buf 8 ≠ 0x2100 ∧ leAt buf 8 ≠ 0x5000 := by
  unfold Decoding HeaderValid; decide
theorem witness_StepRunsTheDecodedCommand :
    Decoding (holding .decoding dmx3) dmx3 ∧ decode true dmx3 = .ok (.opOutput 0 0 3) ∧
      (holding .dispatching dmx3).fsm = .dispatching ∧ (holding .dispatching dmx3).env.agenda = [] := by
  unfold Decoding; decide
theorem witness_OutputWritesOneFrame :
    Memory.wf (holding .dispatching dmx3).rxBuf ∧
      18 + (3 : BitVec 10).toNat ≤ (holding .dispatching dmx3).rxLen ∧
      ∀ k < (3 : BitVec 10).toNat, (Memory.read (holding .dispatching dmx3).rxBuf (18 + k)).isSome = true := by
  decide
theorem witness_OutputWritesOneFrame_empty :
    Memory.wf (holding .dispatching (dmxHead 0 0)).rxBuf ∧
      18 + (0 : BitVec 10).toNat ≤ (holding .dispatching (dmxHead 0 0)).rxLen ∧
      ∀ k < (0 : BitVec 10).toNat,
        (Memory.read (holding .dispatching (dmxHead 0 0)).rxBuf (18 + k)).isSome = true := by decide
theorem witness_OutputPastTheDatagramStops :
    (holding .dispatching dmx3).rxLen < 18 + (4 : BitVec 10).toNat := by decide
theorem witness_SpiFrameHasFourLineBytesPerChannel :
    2 < [0xFF, 0x00, (0x80 : Byte)].length ∧ 3 < 4 ∧ 1 < 2 := by decide
theorem witness_LineCarriesMostSignificantBitFirst : 0 < [(0x80 : Byte)].length ∧ 7 < 8 := by decide
theorem witness_FrameDependsOnChannelDataOnly :
    (holding .halted dmx3).build.encMode = (holding .dispatching dmx3).build.encMode ∧
      (holding .halted dmx3).build.trailerLen = (holding .dispatching dmx3).build.trailerLen ∧
      (holding .halted dmx3).channelData 3 = (holding .dispatching dmx3).channelData 3 ∧
      (nextOf (exec (.opOutput 1 2 3) (holding .dispatching dmx3))).isSome = true ∧
      (nextOf (exec (.opOutput 3 4 3) (holding .halted dmx3))).isSome = true := by decide
theorem witness_CommandsLeaveTheRestUnchanged :
    (nextOf (exec (.opOutput 1 2 3) (holding .dispatching dmx3))).isSome = true := by decide
theorem witness_StartupChecksInOrder :
    ({ r0 with fsm := .starting } : State).fsm = .starting ∧
      ({ r0 with fsm := .starting } : State).env.agenda = [] := by decide
theorem witness_ClockZeroIsRejected :
    clkOk build 3200000 = true ∧ clkOk build 3200001 = false ∧ clkOk build 0 = false := by decide
theorem witness_IdleWaitsForADatagram :
    s0.fsm = .idle ∧ s0.env.agenda = [] ∧ s0.env.rxFatal = false ∧ s0.env.rxq = [] ∧
      (nextOf (step { s0 with env := { s0.env with rxq := [⟨[], none⟩] } })).map (·.fsm) =
        some .receiving := by decide
theorem witness_ReceivingLatchesTheOldestDatagram :
    let s : State := { s0 with fsm := .receiving, env := { s0.env with rxq := [⟨poll, none⟩] } }
    s.env.agenda = [] ∧ s.env.rxFatal = false ∧ s.env.rxq = ⟨poll, none⟩ :: [] ∧ Memory.wf s.rxBuf := by
  decide
theorem witness_ReceivingLatchesTheOldestDatagram_fatal :
    let s : State := { s0 with fsm := .receiving, env := { s0.env with rxFatal := true } }
    s.fsm = .receiving ∧ s.env.agenda = [] ∧ s.env.rxFatal = true := by decide
theorem witness_ReceivingLatchesTheOldestDatagram_nothing :
    let s : State := { s0 with fsm := .receiving }
    s.fsm = .receiving ∧ s.env.agenda = [] ∧ s.env.rxFatal = false ∧ s.env.rxq = [] := by decide
theorem witness_ConfigAndHaltedHaveNoStep :
    r0.env.agenda = [] ∧ r0.fsm = .config ∧ ({ r0 with fsm := .halted } : State).fsm = .halted := by decide
theorem witness_RunEndsExactlyWhereTheRulesSay_running :
    let s : State := { s0 with fsm := .receiving, env := { s0.env with rxFatal := true } }
    Good s ∧ s.env.agenda = [] ∧ ¬ AtRunEnd s :=
  ⟨⟨⟨by decide, by decide, by decide, by decide⟩, by simp [CommandLaw], by simp [PendingLaw]⟩,
    by decide, by simp [AtRunEnd]⟩
theorem witness_RunEndsExactlyWhereTheRulesSay_ended :
    Good s0 ∧ s0.env.agenda = [] ∧ AtRunEnd s0 :=
  ⟨⟨⟨by decide, by decide, by decide, by decide⟩, by simp [CommandLaw, s0], by simp [PendingLaw, s0]⟩,
    by decide, .inr (.inr ⟨by decide, by decide, by decide⟩)⟩
theorem witness_FsmTakesOnlyTheEdges_start :
    (nextOf (step (facing (.host (.write 0 4 1)) r0))).map (·.fsm) = some .starting ∧ r0.fsm ≠ .starting := by
  decide
theorem witness_FsmTakesOnlyTheEdges_reset :
    (nextOf (step (facing .reset s0))).map (·.fsm) = some .config ∧ s0.fsm ≠ .config := by decide
theorem witness_FsmTakesOnlyTheEdges_block :
    (nextOf (step (holding .decoding poll))).map (·.fsm) = some .dispatching := by decide
theorem witness_OnlyResetLeavesHalted :
    let s := facing (.host (.write 0 4 1)) { s0 with fsm := .halted }
    s.fsm = .halted ∧ resetNext s = false ∧ (nextOf (step s)).isSome = true := by decide
theorem witness_EveryDatagramIsProcessed :
    let s : State := { s0 with env := { s0.env with rxq := [⟨dmx3, none⟩] } }
    s.fsm = .idle ∧ s.env.agenda = [] ∧ s.env.rxFatal = false ∧ s.env.rxq = ⟨dmx3, none⟩ :: [] ∧
      Memory.wf s.rxBuf := by decide
theorem witness_StepKeepsTheCounterSums :
    let s : State := { holding .decoding dmx3 with cnt := { rx := 1 } }
    CounterLaw s ∧ (nextOf (step s)).isSome = true := by
  unfold CounterLaw; decide
theorem witness_StepKeepsCountersEqualToHistory :
    let s : State := { holding .dispatching dmx3 with
      cmd := .opOutput 0 0 3, cnt := { writeOk := 1 }, hist := [.frame [1] .ok [1]] }
    HistoryLaw [.reply ⟨1, 2⟩ [] .ok] { s with hist := .reply ⟨1, 2⟩ [] .ok :: s.hist } ∧
      HistoryLaw [] s ∧ (nextOf (step s)).isSome = true :=
  ⟨⟨[.frame [1] .ok [1]], rfl, by decide⟩, ⟨[.frame [1] .ok [1]], rfl, by decide⟩, by decide⟩
theorem witness_LineCarriesOnlyTheFrames :
    let s : State := { holding .dispatching dmx3 with
      cmd := .opOutput 0 0 3, hist := [.frame [1] .ok [1]], env := { s0.env with line := [9, 1] } }
    LineLaw s ∧ (∀ e ∈ s.hist, e.honest) ∧ (nextOf (step s)).isSome = true ∧ resetNext s = false ∧
      LineLaw (facing .reset s) ∧ resetNext (facing .reset s) = true :=
  ⟨⟨[9], rfl⟩, by simp [HistEntry.honest], by decide, by decide, ⟨[9], rfl⟩, by decide⟩
theorem witness_StepKeepsTheLatchesGood :
    let s : State := { holding .dispatching dmx3 with cmd := .opOutput 0 0 3, lastOpcode := 0x5000 }
    Good s ∧ (nextOf (step s)).isSome = true :=
  ⟨⟨⟨by decide, by decide, by decide, by decide⟩, fun _ => ⟨dmx3, by decide, by decide, by decide⟩,
      by simp [PendingLaw, holding]⟩,
    by decide⟩
theorem witness_GoodStateNeverReadsAnUnwrittenByte :
    let s : State := holding .decoding dmx3
    Good s ∧ (nextOf (step s)).map (·.fsm) = some .dispatching :=
  ⟨⟨⟨by decide, by decide, by decide, by decide⟩, by simp [CommandLaw, holding],
    by simp [PendingLaw, holding]⟩, by decide⟩
theorem witness_StepKeepsTheHaltCauseLaw :
    let s : State := { s0 with fsm := .receiving, env := { s0.env with rxFatal := true } }
    HaltLaw s ∧ (nextOf (step s)).map (·.haltCause) = some .recvFatal := by
  unfold HaltLaw; decide
theorem witness_StepKeepsTheBlockFreshBeforeStartup :
    FreshLaw [] (facing (.host (.write 0 4 1)) r0) ∧
      (nextOf (step (facing (.host (.write 0 4 1)) r0))).map (·.fsm) = some .starting := by
  unfold FreshLaw; decide
theorem witness_ConfigurationChangesOnlyByHostInConfig :
    (nextOf (step (facing (.host (.write 0x008 4 5)) r0))).map (·.cfg.serClkHz) = some 5 ∧
      r0.cfg.serClkHz ≠ 5 ∧
      (nextOf (step (facing .reset s0))).map (·.cfg.serClkHz) = some 0 ∧ s0.cfg.serClkHz ≠ 0 := by decide
theorem witness_CountersCountInTheirOwnStep :
    (holding .decoding dmx3).env.agenda = [] ∧
      (nextOf (step (holding .decoding dmx3))).map (·.cnt.output) = some 1 := by decide
theorem witness_StepAddsAtMostOneHistoryEntry :
    resetNext (holding .dispatching poll) = false ∧
      (nextOf (step (holding .dispatching poll))).map (·.hist.length) = some 2 := by decide +kernel
theorem witness_BytesPastTheDatagramDoNotMatter :
    let s := holding .decoding dmx3
    let m := s.rxBuf ++ [(21, 5)]
    Memory.wf s.rxBuf ∧ Memory.wf m ∧ (∀ a < s.rxLen, Memory.read m a = Memory.read s.rxBuf a) ∧
      s.fsm ≠ .receiving ∧ resetNext s = false ∧ (nextOf (step s)).isSome = true ∧
      resetNext (facing .reset s) = true := by decide
theorem witness_BytesPastTheDatagramDoNotMatter_receiving :
    let s : State := { s0 with fsm := .receiving, env := { s0.env with rxq := [⟨poll, none⟩] } }
    let m : Memory := [(20, 5)]
    Memory.wf s.rxBuf ∧ Memory.wf m ∧ (∀ a < s.rxLen, Memory.read m a = Memory.read s.rxBuf a) ∧
      s.fsm = .receiving ∧ resetNext s = false ∧
      (nextOf (step s)).map (·.rxLen) = some 14 := by decide
theorem witness_BuildNeverChanges : (nextOf (step (facing .reset s0))).isSome = true := by decide
theorem witness_HostReadHasNoSideEffect :
    0x1FC % 4 = 0 ∧ 0x1FC ≤ 0x1FC ∧
      (facing (.host (.read 0x1FC 4)) s0).env.agenda = .host (.read 0x1FC 4) :: [] := by decide
theorem witness_HostAccessOutsideTheInterfaceIsRefused :
    (facing (.host (.read 0x200 4)) s0).env.agenda = .host (.read 0x200 4) :: [] ∧ 0x1FF < 0x200 ∧
      (facing (.host (.write 0x1FE 2 0)) s0).env.agenda = .host (.write 0x1FE 2 0) :: [] := by decide
theorem witness_StartWriteStartsOnlyInConfig :
    (facing (.host (.write 0x000 4 1)) r0).env.agenda = .host (.write 0x000 4 1) :: [] := by decide
theorem witness_ConfigWriteSetsItsRegister :
    (facing (.host (.write 0x018 4 7)) r0).fsm = .config ∧
      (facing (.host (.write 0x008 4 7)) r0).env.agenda = .host (.write 0x008 4 7) :: [] ∧
      (facing (.host (.write 0x00C 4 7)) r0).env.agenda = .host (.write 0x00C 4 7) :: [] ∧
      (facing (.host (.write 0x010 4 7)) r0).env.agenda = .host (.write 0x010 4 7) :: [] ∧
      (facing (.host (.write 0x014 4 7)) r0).env.agenda = .host (.write 0x014 4 7) :: [] ∧
      (facing (.host (.write 0x018 4 7)) r0).env.agenda = .host (.write 0x018 4 7) :: [] := by decide
theorem witness_NameWriteSetsItsBytes :
    r0.fsm = .config ∧ 4 < 5 ∧ 15 < 16 ∧
      (facing (.host (.write (0x040 + 4 * 4) 4 7)) r0).env.agenda = .host (.write 0x050 4 7) :: [] ∧
      (facing (.host (.write (0x080 + 4 * 15) 4 7)) r0).env.agenda = .host (.write 0x0BC 4 7) :: [] := by
  decide
theorem witness_OtherHostWritesHaveNoEffect :
    (facing (.host (.write 0x008 4 7)) s0).fsm ≠ .config ∧ 0x008 % 4 = 0 ∧
      (facing (.host (.write 0x0C0 4 7)) r0).env.agenda = .host (.write 0x0C0 4 7) :: [] ∧
      0x0C0 % 4 = 0 ∧ 0x01C % 4 = 0 ∧ 0x03C % 4 = 0 ∧ 0x054 % 4 = 0 ∧ 0x07C % 4 = 0 ∧ 0x004 % 4 = 0 := by
  decide
theorem witness_UnmappedWordsReadZero :
    r0.readReg (regAt 0x01C) = 0 ∧ r0.readReg (regAt 0x03C) = 0 ∧ r0.readReg (regAt 0x054) = 0 ∧
      r0.readReg (regAt 0x07C) = 0 ∧ r0.readReg (regAt 0x0C0) = 0 ∧ r0.readReg (regAt 0x130) = 0 ∧
      r0.readReg (regAt 0x13C) = 0 ∧ r0.readReg (regAt 0x150) = 0 ∧ 0x150 % 4 = 0 := by decide
theorem witness_ResetLeavesTheResetValues : (facing .reset s0).env.agenda = .reset :: [] := by decide
theorem witness_ResetDuringAStepLeavesItsEffectOpen_transmit :
    let s := facing (.resetMid [1] true none) { holding .dispatching dmx3 with cmd := .opOutput 0 0 3 }
    s.fsm = .dispatching ∧ s.cmd = .opOutput 0 0 3 ∧ s.env.agenda = .resetMid [1] true none :: [] := by decide
theorem witness_ResetDuringAStepLeavesItsEffectOpen_send :
    let s := facing (.resetMid [] true (some .ok)) (holding .dispatching poll)
    s.fsm = .dispatching ∧ s.cmd = .opPoll 0 0 ∧ s.env.agenda = .resetMid [] true (some .ok) :: [] := by decide
theorem witness_ResetDuringAStepLeavesItsEffectOpen_recv :
    let s := facing (.resetMid [] true none) { s0 with fsm := .receiving, env := { s0.env with rxFatal := true } }
    s.fsm = .receiving ∧ s.env.agenda = .resetMid [] true none :: [] := by decide
theorem witness_ResetDuringAStepLeavesItsEffectOpen_rest :
    let s := facing (.resetMid [1] false none) (holding .decoding poll)
    s.fsm ≠ .dispatching ∧ s.fsm ≠ .receiving ∧ s.env.agenda = .resetMid [1] false none :: [] := by decide
theorem witness_FatalReceiveIsSignalled :
    (facing .signalRxFatal s0).env.agenda = .signalRxFatal :: [] ∧
      (nextOf (step (facing .signalRxFatal s0))).map rxPending = some true := by decide
theorem witness_InputsAreLive :
    (facing (.setNetReady false) s0).env.agenda = .setNetReady false :: [] ∧
      (facing (.setSinkReady false) s0).env.agenda = .setSinkReady false :: [] := by decide
theorem witness_ArrivalsQueueInOrderOrDrop :
    (facing (.arrive ⟨[3], none⟩) s0).env.agenda = .arrive ⟨[3], none⟩ :: [] ∧
      s0.env.rxq.length < s0.build.rxqDepth := by decide

end Sys2Proof.Tests
end

section
/-!
PROOFS. The configuration registers (10_state.md R32): what leaves them unchanged, and the one
operation besides reset that does not.
-/

namespace Sys2Proof.Machine

/-! ### The block's own step keeps the configuration -/

@[simp] theorem State.showOutput_cfg (s : State) (i : Instr) : (s.showOutput i).cfg = s.cfg := by
  cases i <;> rfl

@[simp] theorem State.accept_cfg (s : State) (i : Instr) : (s.accept i).cfg = s.cfg := by
  simp [State.accept]

@[simp] theorem startStep_cfg (s : State) : (startStep s).cfg = s.cfg := by
  obtain ⟨-, h⟩ | ⟨-, -, h⟩ | ⟨-, -, -, h⟩ | ⟨-, -, -, ⟨-, h⟩ | ⟨-, h⟩⟩ := startStep_cases s <;>
    simp [h]

theorem receiveStep_cfg {s t : State} (h : receiveStep s = .next t) : t.cfg = s.cfg := by
  obtain ⟨-, rfl⟩ | ⟨d, q, -, -, rfl⟩ := receiveStep_cases h <;> simp

theorem decodeStep_cfg {s t : State} (h : decodeStep s = .next t) : t.cfg = s.cfg := by
  obtain ⟨buf, -, ⟨-, rfl⟩ | ⟨-, rfl⟩ | ⟨i, -, rfl⟩⟩ := decodeStep_cases h <;> simp

theorem exec_cfg {i : Instr} {s t : State} (h : exec i s = .next t) : t.cfg = s.cfg := by
  obtain ⟨_, _, -, rfl⟩ | ⟨-, rfl⟩ | ⟨_, _, _, _, -, -, rfl⟩ | ⟨_, -, rfl⟩ := exec_cases h <;> simp

theorem blockStep_cfg {s t : State} (h : blockStep s = .next t) : t.cfg = s.cfg := by
  obtain ⟨-, rfl⟩ | ⟨-, -, rfl⟩ | ⟨-, h⟩ | ⟨-, h⟩ | ⟨-, h⟩ := blockStep_cases h
  · exact startStep_cfg s
  · exact State.goto_cfg s .receiving
  · exact receiveStep_cfg h
  · exact decodeStep_cfg h
  · exact exec_cfg h

/-! ### Which moves of the agents change it -/

/-- A write reaches the configuration only through a register that R33 marks RW-cfg. -/
theorem NodeCfg.write_of_not_isCfg (c : NodeCfg) (v : Word) {r : Reg} (h : r.isCfg = false) :
    c.write v r = c := by
  cases r with
  | serClkHz | nodeIp | nodeMacHi | nodeMacLo | numPorts | shortName | longName =>
    simp [Reg.isCfg] at h
  | ctrl | status | cnt | lastOpcode | lastOutUniverse | lastOutSeq | lastOutLen | unmapped => rfl

theorem State.writeReg_cfg_ne {s : State} {r : Reg} {v : Word} (h : (s.writeReg r v).cfg ≠ s.cfg) :
    s.fsm = .config ∧ r.isCfg = true := by
  obtain hw | ⟨-, -, -, hw⟩ | ⟨hf, -, hw⟩ := s.writeReg_cases r v <;> rw [hw] at h
  · exact absurd rfl h
  · exact absurd (State.goto_cfg s .starting) h
  · refine ⟨hf, ?_⟩
    by_contra hr
    exact h (s.cfg.write_of_not_isCfg v (Bool.eq_false_of_not_eq_true hr))

/-- The interface takes 32-bit accesses only (20_memory.md R59). -/
theorem eq_four_of_accessOk {off bytes : Nat} (h : accessOk off bytes = true) : bytes = 4 := by
  simp only [accessOk, Bool.and_eq_true, beq_iff_eq] at h
  obtain ⟨⟨hbytes, -⟩, -⟩ := h
  exact hbytes

theorem hostAccess_cfg_ne {op : HostOp} {s t : State} (h : hostAccess op s = .next t)
    (hc : t.cfg ≠ s.cfg) :
    s.fsm = .config ∧ ∃ off v, op = .write off 4 v ∧ accessOk off 4 = true ∧
      (regAt off).isCfg = true := by
  obtain h | ⟨off, bytes, -, -, h⟩ | ⟨off, bytes, v, rfl, ha, h⟩ := hostAccess_cases h <;> cases h
  · exact absurd rfl hc
  · obtain rfl := eq_four_of_accessOk ha
    obtain ⟨hf, hr⟩ := State.writeReg_cfg_ne hc
    exact ⟨hf, off, v, rfl, ha, hr⟩

@[simp] theorem arrive_cfg (d : Datagram) (s : State) : (arrive d s).cfg = s.cfg := by
  unfold arrive
  split <;> rfl

theorem agentMove_cfg_ne {m : Move} {s t : State} (h : agentMove m s = .next t)
    (hc : t.cfg ≠ s.cfg) :
    (∃ op, m = .host op ∧ hostAccess op s = .next t) ∨ m = .reset ∨
      ∃ carried done entry, m = .resetMid carried done entry := by
  cases m with
  | host op => exact .inl ⟨op, rfl, h⟩
  | reset => exact .inr (.inl rfl)
  | resetMid carried done entry => exact .inr (.inr ⟨carried, done, entry, rfl⟩)
  | block | setNetReady | setSinkReady | signalRxFatal =>
    cases h
    exact absurd rfl hc
  | arrive d =>
    cases h
    exact absurd (arrive_cfg d s) hc

/-- Settles O40: the block's own step keeps the configuration, and of the agents' moves only a reset
and a host write of a configuration register in CONFIG do not. -/
theorem configurationChangesOnlyByHostInConfig :
    Obligations.ConfigurationChangesOnlyByHostInConfig := by
  intro s t h hc
  obtain ⟨-, hb⟩ | ⟨ms, -, hb⟩ | ⟨m, ms, ha, hm⟩ := step_cases h
  · exact absurd (blockStep_cfg hb) hc
  · exact absurd (blockStep_cfg hb) hc
  · obtain ⟨op, rfl, ho⟩ | rfl | ⟨carried, done, entry, rfl⟩ := agentMove_cfg_ne hm hc
    · obtain ⟨hf, off, v, rfl, hok, hr⟩ := hostAccess_cfg_ne ho hc
      exact .inl ⟨hf, regAt off, v, hr, off, ms, ha, hok, rfl⟩
    · exact .inr (by simp [resetNext, ha])
    · exact .inr (by simp [resetNext, ha])

end Sys2Proof.Machine
end

section
/-!
PROOFS. The block's two interfaces of 20_memory.md: the order of the bits on the serial line (R56), and
which accesses the host interface refuses (R59).
-/

namespace Sys2Proof.Machine

/-! ### The order of the bits on the line -/

/-- Where every element contributes `n` entries, entry `n * k + j` is entry `j` of element `k`. -/
theorem getElem?_flatMap_of_length_eq {α β : Type} {f : α → List β} {n : Nat}
    (hf : ∀ x, (f x).length = n) (xs : List α) {k j : Nat} (hk : k < xs.length) (hj : j < n) :
    (xs.flatMap f)[n * k + j]? = (f xs[k])[j]? := by
  induction xs generalizing k with
  | nil => simp at hk
  | cons x xs ih =>
    rw [List.flatMap_cons]
    cases k with
    | zero =>
      rw [Nat.mul_zero, Nat.zero_add, List.getElem?_append_left (by rwa [hf]), List.getElem_cons_zero]
    | succ k =>
      have hoff : n * (k + 1) + j - (f x).length = n * k + j := by
        rw [hf, Nat.mul_succ]
        omega
      rw [List.getElem?_append_right (by rw [hf, Nat.mul_succ]; omega), hoff,
        ih (by simpa using hk), List.getElem_cons_succ]

theorem serialBits_length (bs : List Byte) : (serialBits bs).length = frameBitPeriods bs := by
  simp [serialBits, frameBitPeriods, List.length_flatMap, Nat.mul_comm]

theorem serialBits_getElem? {bs : List Byte} {k j : Nat} (hk : k < bs.length) (hj : j < 8) :
    (serialBits bs)[8 * k + j]? = some (bs[k].getLsbD (7 - j)) := by
  rw [serialBits, getElem?_flatMap_of_length_eq (fun b => by simp) bs hk hj]
  simp [hj]

/-- Settles O21: every byte puts its eight bits on the line, from bit 7 down. -/
theorem lineCarriesMostSignificantBitFirst : Obligations.LineCarriesMostSignificantBitFirst := by
  intro bs k j hk hj
  refine ⟨?_, serialBits_length bs⟩
  rw [serialBits_getElem? hk hj, List.getD_eq_getElem _ _ hk]

/-! ### The accesses the interface refuses -/

theorem accessOk_iff {off bytes : Nat} :
    accessOk off bytes = true ↔ bytes = 4 ∧ off % 4 = 0 ∧ off ≤ 0x1FF := by
  simp only [accessOk, Bool.and_eq_true, beq_iff_eq, decide_eq_true_eq, and_assoc]

/-- Reads and writes are refused alike, on the offset and the width alone. -/
theorem hostAccess_refused_iff {op : HostOp} {off bytes : Nat} (s : State)
    (hop : op = .read off bytes ∨ ∃ v, op = .write off bytes v) :
    hostAccess op s = .refused .hostAccess ↔ ¬ accessOk off bytes = true := by
  by_cases h : accessOk off bytes = true
  · obtain rfl | ⟨v, rfl⟩ := hop <;> simp [hostAccess, h]
  · obtain rfl | ⟨v, rfl⟩ := hop <;> simp [hostAccess, h]

/-- With a host access first on the agenda a step is that access. -/
theorem step_of_host {s : State} {op : HostOp} {ms : List Move} (h : s.env.agenda = .host op :: ms) :
    step s = hostAccess op (s.withAgenda ms) :=
  step_of_move h nofun

/-- Settles O49: the step is the access itself, which is refused exactly outside the interface. -/
theorem hostAccessOutsideTheInterfaceIsRefused :
    Obligations.HostAccessOutsideTheInterfaceIsRefused := by
  intro s off bytes v ms h
  have refused_iff : ∀ op, s.env.agenda = .host op :: ms →
      (op = .read off bytes ∨ ∃ v, op = .write off bytes v) →
      (step s = .refused .hostAccess ↔ bytes ≠ 4 ∨ off % 4 ≠ 0 ∨ 0x1FF < off) := by
    intro op ha hop
    rw [step_of_host ha, hostAccess_refused_iff _ hop, accessOk_iff]
    omega
  obtain ha | ha := h
  · exact refused_iff _ ha (.inl rfl)
  · exact refused_iff _ ha (.inr ⟨v, rfl⟩)

end Sys2Proof.Machine
end

section
/-!
PROOFS. The two encodings of 30_encoding.md: the strip frame's bytes, channel by channel (R89 to R91),
and the reply's fields, each at its offset (R88).
-/

namespace Sys2Proof.Machine

/-! ### The strip frame -/

/-- How many line bytes a channel byte becomes (R90, R91). -/
def lineBytesPerChannel : EncMode → Nat
  | .direct => 1
  | .ws2812Spi4 => 4

@[simp] theorem encByte_length (mode : EncMode) (b : Byte) :
    (encByte mode b).length = lineBytesPerChannel mode := by
  cases mode <;> rfl

theorem length_flatMap_encByte (mode : EncMode) (data : List Byte) :
    (data.flatMap (encByte mode)).length = lineBytesPerChannel mode * data.length := by
  simp [List.length_flatMap, Nat.mul_comm]

theorem frameOf_length (mode : EncMode) (t : Nat) (data : List Byte) :
    (frameOf mode t data).length = lineBytesPerChannel mode * data.length + t := by
  rw [frameOf, List.length_append, length_flatMap_encByte, List.length_replicate]

/-- The channels stand in order, each as its `enc(b)` (R89). -/
theorem frameOf_getElem?_channel (mode : EncMode) (t : Nat) {data : List Byte} {k j : Nat}
    (hk : k < data.length) (hj : j < lineBytesPerChannel mode) :
    (frameOf mode t data)[lineBytesPerChannel mode * k + j]? = (encByte mode data[k])[j]? := by
  have hlt : lineBytesPerChannel mode * k + j < (data.flatMap (encByte mode)).length := by
    rw [length_flatMap_encByte]
    calc lineBytesPerChannel mode * k + j
      _ < lineBytesPerChannel mode * (k + 1) := by rw [Nat.mul_succ]; omega
      _ ≤ lineBytesPerChannel mode * data.length := Nat.mul_le_mul_left _ hk
  rw [frameOf, List.getElem?_append_left hlt,
    getElem?_flatMap_of_length_eq (encByte_length mode) data hk hj]

/-- The trailer's zero bytes follow the channels (R89). -/
theorem frameOf_getElem?_trailer (mode : EncMode) {t : Nat} (data : List Byte) {j : Nat}
    (hj : j < t) : (frameOf mode t data)[lineBytesPerChannel mode * data.length + j]? = some 0 := by
  rw [frameOf, ← length_flatMap_encByte, List.getElem?_append_right (Nat.le_add_right _ _),
    Nat.add_sub_cancel_left, List.getElem?_replicate_of_lt hj]

theorem frameOf_direct (t : Nat) (data : List Byte) :
    frameOf .direct t data = data ++ List.replicate t 0 := by
  have hid : data.flatMap (encByte .direct) = data := List.flatMap_singleton' data
  rw [frameOf, hid]

/-- Line byte `j` of a channel byte holds channel bits `7 - 2j` and `6 - 2j` (R91). -/
theorem encByte_ws2812Spi4_getElem? (b : Byte) {j : Nat} (hj : j < 4) :
    (encByte .ws2812Spi4 b)[j]? = some (pairPattern b (6 - 2 * j)) := by
  interval_cases j <;> rfl

/-- The pattern of the higher channel bit fills the line byte's high half. -/
theorem pairPattern_eq_or (b : Byte) (k : Nat) :
    pairPattern b k =
      ((if b.getLsbD (k + 1) then (0xE : BitVec 8) else 0x8) <<< 4) |||
        (if b.getLsbD k then (0xE : BitVec 8) else 0x8) := by
  unfold pairPattern
  cases b.getLsbD (k + 1) <;> cases b.getLsbD k <;> rfl

/-- Settles O20: the frame is cut into four line bytes a channel, and each line byte into the patterns
of its two channel bits. -/
theorem spiFrameHasFourLineBytesPerChannel : Obligations.SpiFrameHasFourLineBytesPerChannel := by
  intro t data
  refine ⟨frameOf_length .ws2812Spi4 t data, fun k j hk hj => ?_,
    fun j hj => frameOf_getElem?_trailer .ws2812Spi4 data hj⟩
  have hchan := frameOf_getElem?_channel .ws2812Spi4 t hk hj
  have hhigh : 7 - 2 * j = 6 - 2 * j + 1 := by omega
  rw [List.getD_eq_getElem _ _ hk, hhigh, ← pairPattern_eq_or, ← encByte_ws2812Spi4_getElem? _ hj]
  exact hchan

/-- Settles O19: DIRECT encodes each channel byte as itself. -/
theorem directFrameIsTheChannelData : Obligations.DirectFrameIsTheChannelData := by
  intro t data
  refine ⟨frameOf_direct t data, ?_⟩
  rw [frameOf_direct, List.length_append, List.length_replicate]

/-! ### The reply -/

/-- The fields of the table in R88, neighbouring fields of zeros as one. -/
def replyFields (c : NodeCfg) : List (List Byte) :=
  [artNetId, halfOctetsLe 0x2100, wordOctets c.nodeIp, halfOctetsLe Config.artPort, zeros 10,
    c.shortName.toList, c.longName.toList, zeros 64, halfOctets c.numPorts, portTypes c.numPorts,
    zeros 23, wordOctets c.nodeMacHi ++ halfOctets c.nodeMacLo, zeros 32]

theorem buildReply_eq_flatten (c : NodeCfg) : buildReply c = (replyFields c).flatten := by
  simp [buildReply, replyFields]

/-- The fields' sizes, the same for every configuration. -/
def replyFieldLengths : List Nat := [8, 2, 4, 2, 10, 18, 64, 64, 2, 4, 23, 6, 32]

theorem map_length_replyFields (c : NodeCfg) :
    (replyFields c).map List.length = replyFieldLengths := by
  simp [replyFields, replyFieldLengths, artNetId, halfOctetsLe, halfOctets, wordOctets, zeros,
    portTypes]

theorem buildReply_length (c : NodeCfg) : (buildReply c).length = 239 := by
  rw [buildReply_eq_flatten, List.length_flatten, map_length_replyFields]
  rfl

/-- Field `k` stands where the sizes of the fields before it say. -/
theorem buildReply_field (c : NodeCfg) {k off n : Nat} {field : List Byte}
    (hfield : (replyFields c)[k]? = some field)
    (hoff : (replyFieldLengths.take k).sum = off) (hn : replyFieldLengths[k]? = some n) :
    ((buildReply c).drop off).take n = field := by
  obtain ⟨hk, rfl⟩ := List.getElem?_eq_some_iff.mp hfield
  have hlen : (replyFields c)[k].length = n := by
    rw [← map_length_replyFields c, List.getElem?_map, hfield] at hn
    exact Option.some.inj hn
  have hcut : (replyFields c).flatten =
      ((replyFields c).take k).flatten ++ (replyFields c)[k] ++
        ((replyFields c).drop (k + 1)).flatten := by
    rw [← List.flatten_concat, ← List.flatten_append]
    simp
  have hpre : ((replyFields c).take k).flatten.length = off := by
    rw [List.length_flatten, List.map_take, map_length_replyFields, hoff]
  rw [buildReply_eq_flatten, hcut, ← hpre, ← hlen, List.append_assoc, List.drop_left,
    List.take_left]

theorem portTypes_getElem? (numPorts : Half) {i : Nat} (hi : i < 4) :
    (portTypes numPorts)[i]? = some (if i < numPorts.toNat then 0x80 else 0x00) := by
  simp [portTypes, hi]

theorem buildReply_portType (c : NodeCfg) {i : Nat} (hi : i < 4) :
    (buildReply c)[174 + i]? = some (if i < c.numPorts.toNat then 0x80 else 0x00) := by
  have hports : ((buildReply c).drop 174).take 4 = portTypes c.numPorts :=
    buildReply_field c (k := 9) rfl rfl rfl
  rw [← List.getElem?_drop, ← List.getElem?_take_of_lt hi, hports, portTypes_getElem? _ hi]

/-- Settles O14: every field is read off the list of fields at the offset its predecessors leave. -/
theorem replyHasTheArtPollReplyLayout : Obligations.ReplyHasTheArtPollReplyLayout := by
  intro c
  exact ⟨buildReply_length c,
    buildReply_field c (k := 0) rfl rfl rfl,
    buildReply_field c (k := 1) rfl rfl rfl,
    buildReply_field c (k := 2) rfl rfl rfl,
    buildReply_field c (k := 3) rfl rfl rfl,
    buildReply_field c (k := 4) rfl rfl rfl,
    buildReply_field c (k := 5) rfl rfl rfl,
    buildReply_field c (k := 6) rfl rfl rfl,
    buildReply_field c (k := 7) rfl rfl rfl,
    buildReply_field c (k := 8) rfl rfl rfl,
    fun _ hi => buildReply_portType c hi,
    buildReply_field c (k := 10) rfl rfl rfl,
    buildReply_field c (k := 11) rfl rfl rfl,
    buildReply_field c (k := 12) rfl rfl rfl⟩

end Sys2Proof.Machine
end

section
/-!
PROOFS. The packet decoder of 40_packet_decoder.md in the statements' words (natural lengths and
opcodes), the DECODING step on what it answers (42_receive_loop_and_host.md R121), and the part of
the datagram latch that an accepted Output leaves to the strip writer.
-/

namespace Sys2Proof.Machine

/-! ### Two-byte fields as naturals -/

theorem toNat_append_bytes (hi lo : Byte) :
    (hi ++ lo : Half).toNat = 256 * hi.toNat + lo.toNat := by
  rw [BitVec.toNat_append, ← Nat.shiftLeft_add_eq_or_of_lt lo.isLt, Nat.shiftLeft_eq, Nat.mul_comm]

@[simp] theorem u16le_toNat (buf : List Byte) (k : Nat) : (u16le buf k).toNat = leAt buf k := by
  rw [u16le, toNat_append_bytes, Nat.add_comm]
  rfl

@[simp] theorem u16be_toNat (buf : List Byte) (k : Nat) : (u16be buf k).toNat = beAt buf k :=
  toNat_append_bytes _ _

theorem u16le_eq_iff {buf : List Byte} {k : Nat} {h : Half} :
    u16le buf k = h ↔ leAt buf k = h.toNat := by
  rw [← BitVec.toNat_inj, u16le_toNat]

theorem u16be_eq_iff {buf : List Byte} {k : Nat} {h : Half} :
    u16be buf k = h ↔ beAt buf k = h.toNat := by
  rw [← BitVec.toNat_inj, u16be_toNat]

theorem u16le_eq_ofNat (buf : List Byte) (k : Nat) :
    u16le buf k = BitVec.ofNat 16 (leAt buf k) := by
  rw [← u16le_toNat, BitVec.ofNat_toNat, BitVec.setWidth_eq]

/-! ### The decoder -/

/-- The decoder's header check is R93's on naturals. -/
theorem headerOk_iff {vchk : Bool} {buf : List Byte} :
    headerOk vchk buf = true ↔ HeaderValid vchk buf := by
  simp [headerOk, HeaderValid, artNetId, Config.protVer, u16be_eq_iff, u16le_eq_iff, and_assoc]

theorem decode_of_not_headerValid {vchk : Bool} {buf : List Byte} (h : ¬ HeaderValid vchk buf) :
    decode vchk buf = .err .badHeader := by
  rw [decode, if_neg (mt headerOk_iff.1 h)]

/-- Behind a valid header the opcode alone selects the row (30_encoding.md R83). -/
theorem decode_of_headerValid {vchk : Bool} {buf : List Byte} (h : HeaderValid vchk buf) :
    decode vchk buf =
      if leAt buf 8 = 0x2000 then decodePoll buf
      else if leAt buf 8 = 0x2100 then decodePollReply
      else if leAt buf 8 = 0x5000 then decodeOutput buf
      else decodeOther (u16le buf 8) := by
  simp [decode, headerOk_iff.2 h, u16le_eq_iff]

theorem decode_of_outputOpcode {vchk : Bool} {buf : List Byte} (h : HeaderValid vchk buf)
    (hop : leAt buf 8 = 0x5000) : decode vchk buf = decodeOutput buf := by
  rw [decode_of_headerValid h, if_neg (by omega), if_neg (by omega), if_pos hop]

theorem decodePoll_of_short {buf : List Byte} (h : buf.length < 14) :
    decodePoll buf = .err .truncated :=
  if_pos h

theorem decodePoll_of_whole {buf : List Byte} (h : 14 ≤ buf.length) :
    decodePoll buf = .ok (.opPoll (buf.getD 12 0) (buf.getD 13 0)) :=
  if_neg (Nat.not_lt.2 h)

/-- The three checks of R97 fail alike, so their order does not show. -/
theorem decodeOutput_eq (buf : List Byte) :
    decodeOutput buf =
      if buf.length < 18 ∨ 512 < beAt buf 16 ∨ buf.length < 18 + beAt buf 16 then .err .truncated
      else .ok (.opOutput (buf.getD 12 0) (u16le buf 14) (BitVec.ofNat 10 (beAt buf 16))) := by
  simp only [decodeOutput, u16be_toNat, ite_or]
  rfl

/-- `BadHeader` is the answer to a failed header check and to nothing else (R93). -/
theorem decode_eq_badHeader_iff {vchk : Bool} {buf : List Byte} :
    decode vchk buf = .err .badHeader ↔ ¬ HeaderValid vchk buf := by
  refine ⟨fun hd hv => ?_, decode_of_not_headerValid⟩
  rw [decode_of_headerValid hv, decodeOutput_eq, decodePoll] at hd
  split_ifs at hd <;> cases hd

/-! ### The DECODING step -/

theorem step_of_decoding {s : State} {buf : List Byte} (h : Decoding s buf) :
    step s = .next (s.decoded buf (decode s.build.vchkPollReply buf)) := by
  obtain ⟨hfsm, hagenda, hread⟩ := h
  rw [step_of_agenda_nil hagenda, blockStep, hfsm]
  simp only [decodeStep, hread]

theorem step_of_decode_badHeader {s : State} {buf : List Byte} (h : Decoding s buf)
    (hd : decode s.build.vchkPollReply buf = .err .badHeader) :
    step s = .next (s.contain .badHeader .badHeader) := by
  rw [step_of_decoding h, hd]
  rfl

theorem step_of_decode_truncated {s : State} {buf : List Byte} {op : Half} (h : Decoding s buf)
    (hop : leAt buf 8 = op.toNat) (hd : decode s.build.vchkPollReply buf = .err .truncated) :
    step s = .next ({ s with lastOpcode := op }.contain .truncated .truncated) := by
  rw [step_of_decoding h, hd, ← u16le_eq_iff.2 hop]
  rfl

theorem step_of_decode_ok {s : State} {buf : List Byte} {i : Instr} (h : Decoding s buf)
    (hd : decode s.build.vchkPollReply buf = .ok i) : step s = .next (s.accept i) := by
  rw [step_of_decoding h, hd]
  rfl

/-! ### A part of a range read -/

theorem Memory.readRange_cons_of_lt {c : Host.Cell} {a : Nat} (h : c.1 < a) (m : Memory) (n : Nat) :
    Memory.readRange (c :: m) a n = Memory.readRange m a n := by
  cases n with
  | zero => simp
  | succ n => simp [Memory.readRange, h]

theorem Memory.readRange_cons_self (c : Host.Cell) (m : Memory) (n : Nat) :
    Memory.readRange (c :: m) c.1 (n + 1) =
      (Memory.readRange m (c.1 + 1) n).map (c.2 :: ·) := by
  simp [Memory.readRange]

theorem Memory.readRange_cons_of_gt {c : Host.Cell} {a : Nat} (h : a < c.1) (m : Memory) (n : Nat) :
    Memory.readRange (c :: m) a (n + 1) = none := by
  simp [Memory.readRange, show ¬ c.1 < a by omega, show c.1 ≠ a by omega]

theorem Memory.length_of_readRange {m : Memory} {a n : Nat} {bs : List Byte}
    (h : Memory.readRange m a n = some bs) : bs.length = n := by
  induction m generalizing a n bs with
  | nil =>
    cases n with
    | zero => cases (Memory.readRange_zero _ _).symm.trans h; rfl
    | succ n => simp [Memory.readRange] at h
  | cons c m ih =>
    cases n with
    | zero => cases (Memory.readRange_zero _ _).symm.trans h; rfl
    | succ n =>
      obtain hlt | rfl | hgt := Nat.lt_trichotomy c.1 a
      · rw [Memory.readRange_cons_of_lt hlt] at h
        exact ih h
      · rw [Memory.readRange_cons_self] at h
        obtain ⟨bs, hbs, rfl⟩ := Option.map_eq_some_iff.1 h
        rw [List.length_cons, ih hbs]
      · simp [Memory.readRange_cons_of_gt hgt] at h

/-- A range inside a range that can be read is read too. No canonical form is needed: the one pass
from `a` meets only offsets below `a + k` before it comes to `a + k`, and the pass from there skips
them. -/
theorem Memory.readRange_sub {m : Memory} {a n k j : Nat} {bs : List Byte}
    (h : Memory.readRange m a n = some bs) (hkj : k + j ≤ n) :
    Memory.readRange m (a + k) j = some ((bs.drop k).take j) := by
  induction m generalizing a n k j bs with
  | nil =>
    cases n with
    | zero =>
      obtain rfl : j = 0 := by omega
      simp
    | succ n => simp [Memory.readRange] at h
  | cons c m ih =>
    cases n with
    | zero =>
      obtain rfl : j = 0 := by omega
      simp
    | succ n =>
      obtain hlt | rfl | hgt := Nat.lt_trichotomy c.1 a
      · rw [Memory.readRange_cons_of_lt hlt] at h
        rw [Memory.readRange_cons_of_lt (by omega), ih h hkj]
      · rw [Memory.readRange_cons_self] at h
        obtain ⟨bs, hbs, rfl⟩ := Option.map_eq_some_iff.1 h
        cases k with
        | succ k =>
          rw [Memory.readRange_cons_of_lt (by omega), List.drop_succ_cons, ← ih hbs (by omega)]
          congr 1
          omega
        | zero =>
          cases j with
          | zero => simp
          | succ j =>
            have hrest := ih (k := 0) (j := j) hbs (by omega)
            rw [Nat.add_zero, List.drop_zero] at hrest
            rw [Nat.add_zero, Memory.readRange_cons_self, hrest]
            rfl
      · simp [Memory.readRange_cons_of_gt hgt] at h

theorem State.memRead_of_le {s : State} {a n : Nat} (h : a + n ≤ s.rxLen) :
    s.memRead a n = Memory.readRange s.rxBuf a n :=
  if_pos h

/-- Where the whole latched datagram can be read, so can every part of it. -/
theorem State.memRead_sub {s : State} {buf : List Byte} {k j : Nat}
    (h : s.memRead 0 s.rxLen = some buf) (hkj : k + j ≤ buf.length) :
    s.memRead k j = some ((buf.drop k).take j) := by
  rw [State.memRead_of_le (by omega)] at h
  rw [Memory.length_of_readRange h] at hkj
  rw [State.memRead_of_le hkj]
  simpa using Memory.readRange_sub h hkj

/-! ### The statements -/

/-- Settles O9: the length checks of R97 pass, so the row is accepted; the length fits the 10-bit
latch field, and the channel data is a part of the latched datagram. -/
theorem outputDatagramDecodes : Obligations.OutputDatagramDecodes := by
  intro s buf hs hv hop h18 hmax hfit seq uni len
  have huni : u16le buf 14 = uni := by
    rw [u16le_eq_ofNat, leAt, Nat.add_comm]
  have hlen : len.toNat = beAt buf 16 :=
    (BitVec.toNat_ofNat _ _).trans (Nat.mod_eq_of_lt (by omega))
  have hd : decode s.build.vchkPollReply buf = .ok (.opOutput seq uni len) := by
    rw [decode_of_outputOpcode hv hop, decodeOutput_eq, if_neg (by omega), huni]
  have hdata : s.channelData len = some ((buf.drop 18).take (beAt buf 16)) := by
    obtain ⟨-, -, hread⟩ := hs
    rw [State.channelData, hlen, State.memRead_sub hread hfit]
  exact ⟨hd, hlen, step_of_decode_ok hs hd, hdata⟩

/-- Settles O5: `BadHeader` is answered exactly where R93's check fails, and the step contains
it. -/
theorem badHeaderDatagramIsDropped : Obligations.BadHeaderDatagramIsDropped := by
  intro s buf hs
  refine ⟨fun hv => ?_, fun hv hd => decode_eq_badHeader_iff.1 hd hv⟩
  have hd := decode_of_not_headerValid hv
  exact ⟨hd, step_of_decode_badHeader hs hd⟩

/-- Settles O6: the length alone decides between the two answers of the Poll row. -/
theorem pollDatagramDecodes : Obligations.PollDatagramDecodes := by
  intro s buf hs hv hop
  have hrow : decode s.build.vchkPollReply buf = decodePoll buf := by
    rw [decode_of_headerValid hv, if_pos hop]
  constructor
  · intro hshort
    have hd := hrow.trans (decodePoll_of_short hshort)
    exact ⟨hd, step_of_decode_truncated (op := 0x2000) hs hop hd⟩
  · intro hwhole
    have hd := hrow.trans (decodePoll_of_whole hwhole)
    exact ⟨hd, step_of_decode_ok hs hd⟩

/-- Settles O7: the PollReply row reads nothing past the header. -/
theorem pollReplyDatagramDecodes : Obligations.PollReplyDatagramDecodes := by
  intro s buf hs hv hop
  have hd : decode s.build.vchkPollReply buf = .ok .opPollReply := by
    rw [decode_of_headerValid hv, if_neg (by omega), if_pos hop, decodePollReply]
  exact ⟨hd, step_of_decode_ok hs hd⟩

/-- Settles O8: the Output row is Truncated where one of its length checks fails, else accepted. -/
theorem outputLengthIsValidated : Obligations.OutputLengthIsValidated := by
  intro s buf hs hv hop
  have hrow := (decode_of_outputOpcode hv hop).trans (decodeOutput_eq buf)
  constructor
  · intro hbad
    have hd := hrow.trans (if_pos hbad)
    exact ⟨hd, step_of_decode_truncated (op := 0x5000) hs hop hd⟩
  · intro h18 hmax hfit
    exact ⟨_, hrow.trans (if_neg (by omega))⟩

/-- Settles O10: an opcode outside the three rows is kept as it is. -/
theorem otherDatagramDecodes : Obligations.OtherDatagramDecodes := by
  intro s buf hs hv hpoll hreply hout
  have hd : decode s.build.vchkPollReply buf = .ok (.other (BitVec.ofNat 16 (leAt buf 8))) := by
    rw [decode_of_headerValid hv, if_neg hpoll, if_neg hreply, if_neg hout, decodeOther,
      u16le_eq_ofNat]
  exact ⟨hd, step_of_decode_ok hs hd⟩

end Sys2Proof.Machine
end

section
/-!
PROOFS. The commands the Strip Writer, the responder and the router's ignoring branches execute
(41_command_execution.md R104 to R114): an Output's one frame and what decides it, the reply's
destination, the two commands that leave an event code only.
-/

namespace Sys2Proof.Machine

/-! ### The channel data -/

/-- Channel data that lies below `rx_len` and was written can be read. -/
theorem State.channelData_of_written {s : State} {n : BitVec 10} (hwf : Memory.wf s.rxBuf)
    (hfit : 18 + n.toNat ≤ s.rxLen)
    (hwritten : ∀ k < n.toNat, (Memory.read s.rxBuf (18 + k)).isSome = true) :
    ∃ data, s.channelData n = some data := by
  rw [State.channelData, State.memRead_of_le hfit]
  exact Memory.readRange_isSome hwf 18 n.toNat hwritten

/-- The channel data is one byte for each offset from 18 on. -/
theorem State.channelData_bytes {s : State} {n : BitVec 10} {data : List Byte}
    (hwf : Memory.wf s.rxBuf) (hd : s.channelData n = some data) :
    data.length = n.toNat ∧ ∀ k < n.toNat, Memory.read s.rxBuf (18 + k) = data[k]? := by
  obtain ⟨-, hlen, hbytes⟩ := (State.memRead_eq_some_iff hwf 18 n.toNat data).1 hd
  exact ⟨hlen, hbytes⟩

/-! ### OpOutput -/

/-- An Output with its channel data in the latch is one request, its count and its event code. -/
theorem exec_opOutput_of_channelData (seq : Byte) (uni : Half) {n : BitVec 10} {s : State}
    {data : List Byte} (hd : s.channelData n = some data) :
    exec (.opOutput seq uni n) s =
      .next (((s.transmit (frameOf s.build.encMode s.build.trailerLen data)).count
        (writeCounter (writeResult s.transmitAnswer))).finish
          (writeEvent (writeResult s.transmitAnswer))) := by
  simp only [exec, execOpOutput, hd]

/-- What a `Transmit`, its count and the edge to IDLE write, and nothing else. -/
theorem State.finish_count_transmit (s : State) (frame : List Byte) (c : Counter) (e : Event) :
    ((s.transmit frame).count c).finish e = { s with
      hist := s.hist ++
        [.frame frame (writeResult s.transmitAnswer) (lineBytes frame s.transmitAnswer)]
      cnt := s.cnt.bump c
      lastEvent := e
      fsm := .idle
      env := { s.env with
        line := s.env.line ++ lineBytes frame s.transmitAnswer
        txAns := s.env.txAns.tail
        draws := s.env.draws + 1 } } := rfl

/-- Settles O17: the channel data can be read, so the command is one request; the answer alone
decides the counter, the event code and the bytes on the line. -/
theorem outputWritesOneFrame : Obligations.OutputWritesOneFrame := by
  intro seq uni n s hwf hfit hwritten
  obtain ⟨data, hd⟩ := State.channelData_of_written hwf hfit hwritten
  obtain ⟨hlen, hbytes⟩ := State.channelData_bytes hwf hd
  refine ⟨data, hlen, hbytes, ?_⟩
  rw [exec_opOutput_of_channelData seq uni hd, State.finish_count_transmit]
  cases s.transmitAnswer with
  | ok => rfl
  | busBusy line => rfl
  | timeout line => rfl

/-- The one history entry an Output adds: the frame of its channel data, with the sink's answer. -/
theorem exec_opOutput_hist {seq : Byte} {uni : Half} {n : BitVec 10} {s t : State}
    (h : exec (.opOutput seq uni n) s = .next t) :
    ∃ data, s.channelData n = some data ∧
      t.hist = s.hist ++ [.frame (frameOf s.build.encMode s.build.trailerLen data)
        (writeResult s.transmitAnswer)
        (lineBytes (frameOf s.build.encMode s.build.trailerLen data) s.transmitAnswer)] := by
  obtain ⟨_, _, hi, -⟩ | ⟨hi, -⟩ | ⟨_, _, _, data, hi, hd, rfl⟩ | ⟨_, hi, -⟩ := exec_cases h <;>
    cases hi
  exact ⟨data, hd, by simp⟩

/-- A write answered `Ok` carries the frame it was asked for (R106). -/
theorem lineBytes_of_writeResult_ok {a : TransmitAnswer} (frame : List Byte)
    (h : writeResult a = .ok) : lineBytes frame a = frame := by
  cases a with
  | ok => rfl
  | busBusy | timeout => cases h

/-- Settles O22: the frame is a function of the channel data and the two build parameters, and a
write answered `Ok` carries that frame. -/
theorem frameDependsOnChannelDataOnly : Obligations.FrameDependsOnChannelDataOnly := by
  intro seq seq' uni uni' n s s' t t' hmode htrailer hdata h h'
  obtain ⟨data, hd, hhist⟩ := exec_opOutput_hist h
  obtain ⟨data', hd', hhist'⟩ := exec_opOutput_hist h'
  obtain rfl : data = data' := Option.some.inj (hd.symm.trans (hdata.symm.trans hd'))
  rw [hmode, htrailer] at hhist'
  refine ⟨_, _, _, _, _, hhist, hhist', fun hok hok' => ?_⟩
  rw [lineBytes_of_writeResult_ok _ hok, lineBytes_of_writeResult_ok _ hok']

/-! ### The reply's destination -/

@[simp] theorem replyDst_some (e : Endpoint) : replyDst (some e) = e := rfl

@[simp] theorem replyDst_none : replyDst none = ⟨0xFFFFFFFF, 6454⟩ := rfl

/-- Settles O13: the two cases of the latched source. -/
theorem replyGoesToRequesterOrBroadcast : Obligations.ReplyGoesToRequesterOrBroadcast :=
  ⟨replyDst_some, replyDst_none⟩

/-! ### The ignored commands -/

theorem State.finish_eq (s : State) (e : Event) :
    s.finish e = { s with lastEvent := e, fsm := .idle } := rfl

theorem exec_opPollReply (s : State) :
    exec .opPollReply s = .next (s.finish .pollReplyIgnored) := rfl

theorem exec_other (op : Half) (s : State) :
    exec (.other op) s = .next (s.finish .otherIgnored) := rfl

/-- Settles O15: the command is the end of the datagram's processing and nothing before it. -/
theorem pollReplyIsIgnored : Obligations.PollReplyIsIgnored := by
  intro s
  rw [exec_opPollReply, State.finish_eq]

/-- Settles O16: as for PollReply, whatever the opcode. -/
theorem otherIsIgnored : Obligations.OtherIsIgnored := by
  intro op s
  rw [exec_other, State.finish_eq]

end Sys2Proof.Machine
end

section
/-!
PROOFS. Startup and the host's two accesses (42_receive_loop_and_host.md): the STARTING step's checks
and its bind (R118), the read that changes nothing (R126), the START write (R117).
-/

namespace Sys2Proof.Machine

/-! ### Startup -/

theorem step_of_starting {s : State} (hf : s.fsm = .starting) (ha : s.env.agenda = []) :
    step s = .next (startStep s) := by
  rw [step_of_agenda_nil ha, blockStep, hf]

/-- What a fatal error's entry writes (R136), and nothing else. -/
theorem State.halt_eq (s : State) (c : HaltCause) :
    s.halt c = { s with haltCause := c, fsm := .halted } := rfl

/-- What a bind answered `Ok` leaves. -/
theorem State.goto_idle_bind (s : State) :
    s.bind.goto .idle = { s with
      hist := s.hist ++ [.bind s.bindAnswer]
      fsm := .idle
      env := { s.env with bindAns := s.env.bindAns.tail, draws := s.env.draws + 1 } } := rfl

/-- What a bind that failed leaves. -/
theorem State.halt_bind (s : State) :
    s.bind.halt .bindFailed = { s with
      hist := s.hist ++ [.bind s.bindAnswer]
      haltCause := .bindFailed
      fsm := .halted
      env := { s.env with bindAns := s.env.bindAns.tail, draws := s.env.draws + 1 } } := rfl

/-- Settles O24: each check fails only where the ones before it passed, and with all three passed the
answer of the one bind decides. -/
theorem startupChecksInOrder : Obligations.StartupChecksInOrder := by
  intro s hf ha
  rw [step_of_starting hf ha]
  obtain ⟨hnet, h⟩ | ⟨hnet, hsink, h⟩ | ⟨hnet, hsink, hclk, h⟩ |
    ⟨hnet, hsink, hclk, ⟨hbind, h⟩ | ⟨hbind, h⟩⟩ := startStep_cases s
  · simp [h, hnet, State.halt_eq]
  · simp [h, hnet, hsink, State.halt_eq]
  · simp [h, hnet, hsink, hclk, State.halt_eq]
  · simp [h, hnet, hsink, hclk, hbind, State.goto_idle_bind]
  · simp [h, hnet, hsink, hclk, hbind, State.halt_bind]

/-! ### The host's read -/

/-- No register shows the moves still to come. -/
@[simp] theorem State.readReg_withAgenda (s : State) (ms : List Move) (r : Reg) :
    (s.withAgenda ms).readReg r = s.readReg r := by
  cases r <;> rfl

theorem hostAccess_read {off bytes : Nat} (h : accessOk off bytes = true) (s : State) :
    hostAccess (.read off bytes) s =
      .next { s with env := { s.env with rdata := s.readReg (regAt off) } } :=
  if_pos h

/-- Settles O48: an aligned word is inside the interface, and what the read returns does not depend
on the agenda. -/
theorem hostReadHasNoSideEffect : Obligations.HostReadHasNoSideEffect := by
  intro s off ms halign hmax ha
  have hok : accessOk off 4 = true := accessOk_iff.2 ⟨rfl, halign, by omega⟩
  rw [step_of_host ha, hostAccess_read hok, State.readReg_withAgenda]
  rfl

/-! ### The START write -/

theorem hostAccess_write {off bytes : Nat} (h : accessOk off bytes = true) (v : Word) (s : State) :
    hostAccess (.write off bytes v) s = .next (s.writeReg (regAt off) v) :=
  if_pos h

/-- A write of CTRL reaches the FSM state register only, and only as START in CONFIG (R117). -/
theorem State.writeReg_ctrl (s : State) (v : Word) :
    s.writeReg .ctrl v =
      { s with fsm := if v.getLsbD 0 = true ∧ s.fsm = .config then .starting else s.fsm } := by
  by_cases hstart : v.getLsbD 0 = true ∧ s.fsm = .config
  · obtain ⟨hv, hf⟩ := hstart
    rw [State.writeReg, if_pos hf, if_pos rfl, if_pos hv, if_pos ⟨hv, hf⟩, State.goto]
  · rw [if_neg hstart]
    obtain hw | ⟨hf, -, hv, -⟩ | ⟨-, hr, -⟩ := s.writeReg_cases .ctrl v
    · exact hw
    · exact absurd ⟨hv, hf⟩ hstart
    · exact absurd rfl hr

/-- Settles O50: offset 0 names CTRL. -/
theorem startWriteStartsOnlyInConfig : Obligations.StartWriteStartsOnlyInConfig := by
  intro s v ms ha
  have hok : accessOk 0x000 4 = true := accessOk_iff.2 ⟨rfl, rfl, by omega⟩
  have hctrl : regAt 0x000 = .ctrl := regAt_of_mem (p := (0x000, .ctrl)) (by decide)
  rw [step_of_host ha, hostAccess_write hok, hctrl, State.writeReg_ctrl]
  rfl

end Sys2Proof.Machine
end

section
/-!
PROOFS. What a step can do, as two relations with one constructor for each way it can go: `BlockTo` for
the block's own step (42_receive_loop_and_host.md R115), `StepTo` for the step of any agent. What every
step keeps is proved along their constructors.
-/

namespace Sys2Proof.Machine

/-! ### The block's own step -/

/-- Where the block's own step leads, and what held before it. -/
inductive BlockTo (s : State) : State → Prop
  | checkFails (c : HaltCause) (hf : s.fsm = .starting) (hc : c ≠ .none) : BlockTo s (s.halt c)
  | binds (hf : s.fsm = .starting) : BlockTo s (s.bind.goto .idle)
  | bindFails (hf : s.fsm = .starting) : BlockTo s (s.bind.halt .bindFailed)
  | wakes (hf : s.fsm = .idle) (hp : rxPending s = true) : BlockTo s (s.goto .receiving)
  | recvFails (hf : s.fsm = .receiving) :
      BlockTo s ({ s with env := { s.env with rxFatal := false } }.halt .recvFatal)
  | receives (d : Datagram) (q : List Datagram) (hf : s.fsm = .receiving) :
      BlockTo s ((({ s with env := { s.env with rxq := q } }.latch d).count .rx).goto .decoding)
  | dropsHeader (hf : s.fsm = .decoding) : BlockTo s (s.contain .badHeader .badHeader)
  | dropsShort (op : Half) (hf : s.fsm = .decoding) :
      BlockTo s ({ s with lastOpcode := op }.contain .truncated .truncated)
  | accepts (buf : List Byte) (i : Instr) (hf : s.fsm = .decoding)
      (hbuf : s.memRead 0 s.rxLen = some buf) (hd : decode s.build.vchkPollReply buf = .ok i) :
      BlockTo s (s.accept i)
  | replies (flags diag : Byte) (hf : s.fsm = .dispatching) (hc : s.cmd = .opPoll flags diag) :
      BlockTo s (((s.send (replyDst s.rxSrc) (buildReply s.cfg)).count
        (sendCounter s.sendAnswer)).finish (sendEvent s.sendAnswer))
  | ignores (e : Event) (hf : s.fsm = .dispatching)
      (hc : s.cmd = .opPollReply ∨ ∃ op, s.cmd = .other op) : BlockTo s (s.finish e)
  | transmits (seq : Byte) (uni : Half) (n : BitVec 10) (frame : List Byte)
      (hf : s.fsm = .dispatching) (hc : s.cmd = .opOutput seq uni n) :
      BlockTo s (((s.transmit frame).count (writeCounter (writeResult s.transmitAnswer))).finish
        (writeEvent (writeResult s.transmitAnswer)))

theorem blockTo_startStep {s : State} (hf : s.fsm = .starting) : BlockTo s (startStep s) := by
  obtain ⟨-, h⟩ | ⟨-, -, h⟩ | ⟨-, -, -, h⟩ | ⟨-, -, -, ⟨-, h⟩ | ⟨-, h⟩⟩ := startStep_cases s <;>
    rw [h]
  · exact .checkFails .notReadyNet hf nofun
  · exact .checkFails .notReadySink hf nofun
  · exact .checkFails .clockInvalid hf nofun
  · exact .binds hf
  · exact .bindFails hf

theorem blockTo_of_exec {s t : State} (hf : s.fsm = .dispatching) (h : exec s.cmd s = .next t) :
    BlockTo s t := by
  obtain ⟨flags, diag, hc, rfl⟩ | ⟨hc, rfl⟩ | ⟨seq, uni, n, data, hc, -, rfl⟩ | ⟨op, hc, rfl⟩ :=
    exec_cases h
  · exact .replies flags diag hf hc
  · exact .ignores _ hf (.inl hc)
  · exact .transmits seq uni n _ hf hc
  · exact .ignores _ hf (.inr ⟨op, hc⟩)

theorem blockTo_of_blockStep {s t : State} (h : blockStep s = .next t) : BlockTo s t := by
  obtain ⟨hf, rfl⟩ | ⟨hf, hp, rfl⟩ | ⟨hf, h⟩ | ⟨hf, h⟩ | ⟨hf, h⟩ := blockStep_cases h
  · exact blockTo_startStep hf
  · exact .wakes hf hp
  · obtain ⟨-, rfl⟩ | ⟨d, q, -, -, rfl⟩ := receiveStep_cases h
    · exact .recvFails hf
    · exact .receives d q hf
  · obtain ⟨buf, hbuf, ⟨-, rfl⟩ | ⟨-, rfl⟩ | ⟨i, hd, rfl⟩⟩ := decodeStep_cases h
    · exact .dropsHeader hf
    · exact .dropsShort _ hf
    · exact .accepts buf i hf hbuf hd
  · exact blockTo_of_exec hf h

/-! ### The step of any agent -/

/-- Where a step of any agent leads: the block's own step, one of the two resets, the host's START
write, or a move that changes the environment and, in CONFIG, the configuration. Such a move takes
nothing off the line and nothing that was pending. -/
inductive StepTo (s : State) : State → Prop
  | block (ms : List Move) (t : State) (hr : resetNext s = false)
      (h : blockStep (s.withAgenda ms) = .next t) : StepTo s t
  | reset (ms : List Move) (ha : s.env.agenda = .reset :: ms) :
      StepTo s (s.withAgenda ms).applyReset
  | resetMid (l : List Byte) (done : Bool) (entry : Option SendAnswer) (ms : List Move)
      (ha : s.env.agenda = .resetMid l done entry :: ms) :
      StepTo s ((s.withAgenda ms).applyResetMid l done entry)
  | start (v : Word) (ms : List Move) (hr : resetNext s = false) (hf : s.fsm = .config)
      (hv : v.getLsbD 0 = true) (hw : writesNext s .ctrl v) :
      StepTo s ((s.withAgenda ms).goto .starting)
  | outside (c : NodeCfg) (e : Env) (hr : resetNext s = false) (hc : s.fsm ≠ .config → c = s.cfg)
      (hline : e.line = s.env.line)
      (hp : rxPending s = true → rxPending { s with cfg := c, env := e } = true) :
      StepTo s { s with cfg := c, env := e }

theorem stepTo_of_hostAccess {s t : State} {op : HostOp} {ms : List Move}
    (ha : s.env.agenda = .host op :: ms) (h : hostAccess op (s.withAgenda ms) = .next t) :
    StepTo s t := by
  have hr : resetNext s = false := by simp [resetNext, ha]
  obtain h | ⟨off, bytes, -, -, h⟩ | ⟨off, bytes, v, rfl, hok, h⟩ := hostAccess_cases h <;> cases h
  · exact .outside s.cfg _ hr (fun _ => rfl) rfl id
  · obtain rfl := eq_four_of_accessOk hok
    obtain hw | ⟨hf, hctrl, hv, hw⟩ | ⟨hf, -, hw⟩ :=
      (s.withAgenda ms).writeReg_cases (regAt off) v <;> rw [hw]
    · exact .outside s.cfg _ hr (fun _ => rfl) rfl id
    · exact .start v ms hr hf hv ⟨off, ms, ha, hok, hctrl⟩
    · exact .outside _ _ hr (fun hne => absurd hf hne) rfl id

theorem stepTo_arrive {s : State} {d : Datagram} {ms : List Move}
    (ha : s.env.agenda = .arrive d :: ms) : StepTo s (arrive d (s.withAgenda ms)) := by
  have hr : resetNext s = false := by simp [resetNext, ha]
  unfold arrive
  split
  · exact .outside s.cfg _ hr (fun _ => rfl) rfl (by simp [rxPending])
  · exact .outside s.cfg _ hr (fun _ => rfl) rfl id

theorem stepTo_of_agentMove {s t : State} {m : Move} {ms : List Move} (ha : s.env.agenda = m :: ms)
    (h : agentMove m (s.withAgenda ms) = .next t) : StepTo s t := by
  cases m with
  | host op => exact stepTo_of_hostAccess ha h
  | reset => cases h; exact .reset ms ha
  | resetMid l done entry => cases h; exact .resetMid l done entry ms ha
  | arrive d => cases h; exact stepTo_arrive ha
  | block | setNetReady b | setSinkReady b =>
    cases h
    exact .outside s.cfg _ (by simp [resetNext, ha]) (fun _ => rfl) rfl id
  | signalRxFatal =>
    cases h
    exact .outside s.cfg _ (by simp [resetNext, ha]) (fun _ => rfl) rfl (by simp [rxPending])

theorem stepTo_of_step {s t : State} (h : step s = .next t) : StepTo s t := by
  obtain ⟨ha, h⟩ | ⟨ms, ha, h⟩ | ⟨m, ms, ha, h⟩ := step_cases h
  · refine .block [] t (by simp [resetNext, ha]) ?_
    rwa [State.withAgenda, ← ha]
  · exact .block ms t (by simp [resetNext, ha]) h
  · exact stepTo_of_agentMove ha h

end Sys2Proof.Machine
end

section
/-!
PROOFS. What every step keeps, by the constructors of `BlockTo` and `StepTo`: the FSM's edges (R115), the
build, the halt cause (R131), the counter sums (R132), what a step records (R44, R67) and the laws of the
history and the line.
-/

namespace Sys2Proof.Machine

/-! ### What accepting a command writes -/

@[simp] theorem State.accept_fsm (s : State) (i : Instr) : (s.accept i).fsm = .dispatching := rfl

@[simp] theorem State.accept_cmd (s : State) (i : Instr) : (s.accept i).cmd = i := by
  cases i <;> rfl

@[simp] theorem State.accept_lastOpcode (s : State) (i : Instr) :
    (s.accept i).lastOpcode = i.opcode := by
  cases i <;> rfl

@[simp] theorem State.accept_cnt (s : State) (i : Instr) :
    (s.accept i).cnt = s.cnt.bump (cmdCounter i) := by
  cases i <;> rfl

@[simp] theorem State.accept_hist (s : State) (i : Instr) : (s.accept i).hist = s.hist := by
  cases i <;> rfl

@[simp] theorem State.accept_env (s : State) (i : Instr) : (s.accept i).env = s.env := by
  cases i <;> rfl

@[simp] theorem State.accept_build (s : State) (i : Instr) : (s.accept i).build = s.build := by
  cases i <;> rfl

@[simp] theorem State.accept_rxBuf (s : State) (i : Instr) : (s.accept i).rxBuf = s.rxBuf := by
  cases i <;> rfl

@[simp] theorem State.accept_rxLen (s : State) (i : Instr) : (s.accept i).rxLen = s.rxLen := by
  cases i <;> rfl

@[simp] theorem State.accept_rxSrc (s : State) (i : Instr) : (s.accept i).rxSrc = s.rxSrc := by
  cases i <;> rfl

@[simp] theorem State.accept_haltCause (s : State) (i : Instr) :
    (s.accept i).haltCause = s.haltCause := by
  cases i <;> rfl

/-! ### The FSM -/

theorem BlockTo.edge {s t : State} (h : BlockTo s t) : Fsm.edge s.fsm t.fsm = true := by
  cases h <;> simp only [*] <;> rfl

/-- No step of the block's own leads to CONFIG or STARTING. -/
theorem BlockTo.not_before_startup {s t : State} (h : BlockTo s t) :
    ¬ (t.fsm = .config ∨ t.fsm = .starting) := by
  cases h <;> simp

/-- Settles O29: the block's own steps take the edges, and of the other moves only START and the resets
write the FSM state register. -/
theorem fsmTakesOnlyTheEdges : Obligations.FsmTakesOnlyTheEdges := by
  intro s t h hne
  cases stepTo_of_step h with
  | block ms _ hr h => exact .inl (blockTo_of_blockStep h).edge
  | reset ms ha => exact .inr (.inr ⟨rfl, by simp [resetNext, ha]⟩)
  | resetMid l done entry ms ha => exact .inr (.inr ⟨rfl, by simp [resetNext, ha]⟩)
  | start v ms hr hf hv hw => exact .inr (.inl ⟨hf, rfl, v, hv, hw⟩)
  | outside => exact absurd rfl hne

/-- Settles O30: HALTED is neither CONFIG, where alone the host's writes reach the block, nor a state
with an edge. -/
theorem onlyResetLeavesHalted : Obligations.OnlyResetLeavesHalted := by
  intro s t hf hr h
  cases stepTo_of_step h with
  | block ms _ _ h =>
    have hedge := (blockTo_of_blockStep h).edge
    rw [State.withAgenda_fsm, hf] at hedge
    exact absurd hedge (by simp [Fsm.edge])
  | reset ms ha => simp [resetNext, ha] at hr
  | resetMid l done entry ms ha => simp [resetNext, ha] at hr
  | start v ms _ hconfig => simp [hf] at hconfig
  | outside c e _ hc => rw [hc (by simp [hf])]

/-! ### The build and the halt cause -/

theorem BlockTo.build_eq {s t : State} (h : BlockTo s t) : t.build = s.build := by
  cases h <;> simp

/-- Settles O44: no operation writes the build, the resets included. -/
theorem buildNeverChanges : Obligations.BuildNeverChanges := by
  intro s t h
  cases stepTo_of_step h with
  | block ms _ _ h => exact (blockTo_of_blockStep h).build_eq
  | reset | resetMid | start | outside => rfl

/-- A step of the block's own is from a state that is not HALTED; it halts with a cause, or it writes
neither HALT_CAUSE nor HALTED. -/
theorem BlockTo.haltCause_cases {s t : State} (h : BlockTo s t) :
    s.fsm ≠ .halted ∧ ((t.fsm = .halted ∧ t.haltCause ≠ .none) ∨
      (t.fsm ≠ .halted ∧ t.haltCause = s.haltCause)) := by
  cases h <;> simp [*]

/-- Settles O37: HALT_CAUSE is written where HALTED is entered, and cleared where it is left. -/
theorem stepKeepsTheHaltCauseLaw : Obligations.StepKeepsTheHaltCauseLaw := by
  intro s t hl h
  cases stepTo_of_step h with
  | block ms _ _ h =>
    obtain ⟨hf, ⟨hhalt, hcause⟩ | ⟨hrun, hcause⟩⟩ := (blockTo_of_blockStep h).haltCause_cases
    · simp [HaltLaw, hhalt, hcause]
    · simpa [HaltLaw, hrun, hcause] using hl.2 hf
  | reset | resetMid => simp [HaltLaw, State.reset]
  | start v ms _ hf => simpa [HaltLaw, hf] using hl
  | outside => exact hl

/-! ### The counters -/

/-- The block's own step counts nothing, or counts once in the FSM state that R132 names. -/
theorem BlockTo.cnt_cases {s t : State} (h : BlockTo s t) :
    t.cnt = s.cnt ∨ ∃ c : Counter, c.countedIn = s.fsm ∧ t.cnt = s.cnt.bump c := by
  cases h with
  | checkFails | binds | bindFails | wakes | recvFails | ignores => exact .inl rfl
  | receives d q hf => exact .inr ⟨.rx, hf.symm, rfl⟩
  | dropsHeader hf => exact .inr ⟨.badHeader, hf.symm, rfl⟩
  | dropsShort op hf => exact .inr ⟨.truncated, hf.symm, rfl⟩
  | accepts buf i hf => exact .inr ⟨cmdCounter i, by cases i <;> exact hf.symm, by simp⟩
  | replies flags diag hf =>
    exact .inr ⟨sendCounter s.sendAnswer, by cases s.sendAnswer <;> exact hf.symm, rfl⟩
  | transmits seq uni n frame hf =>
    exact .inr ⟨writeCounter (writeResult s.transmitAnswer),
      by cases s.transmitAnswer <;> exact hf.symm, rfl⟩

/-- Settles O41: a count adds one to its own counter and leaves the others. -/
theorem countersCountInTheirOwnStep : Obligations.CountersCountInTheirOwnStep := by
  intro s t ha h
  rw [step_of_agenda_nil ha] at h
  obtain heq | ⟨c, hc, heq⟩ := (blockTo_of_blockStep h).cnt_cases
  · exact .inl heq
  · refine .inr ⟨c, hc, ?_, fun c' hne => ?_⟩
    · rw [heq, Counters.get_bump_self]
    · rw [heq, Counters.get_bump, if_neg hne]

/-- The three sums of R132 with `d` datagrams, `p` Polls and `o` Outputs in flight. -/
def Counters.Sums (k : Counters) (d p o : Word) : Prop :=
  k.rx = k.badHeader + k.truncated + k.poll + k.pollReply + k.output + k.other + d ∧
    k.poll = k.replySent + k.replyFail + p ∧ k.output = k.writeOk + k.busBusy + k.timeout + o

/-- How many results of a Poll a command to be dispatched still owes. -/
def pollsOwed : Instr → Word
  | .opPoll _ _ => 1
  | .opPollReply | .opOutput _ _ _ | .other _ => 0

/-- How many results of an Output a command to be dispatched still owes. -/
def outputsOwed : Instr → Word
  | .opOutput _ _ _ => 1
  | .opPoll _ _ | .opPollReply | .other _ => 0

theorem counterLaw_of_decoding {s : State} (hf : s.fsm = .decoding) :
    CounterLaw s ↔ s.cnt.Sums 1 0 0 := by
  simp [CounterLaw, Counters.Sums, pollInFlight, outputInFlight, one, hf]

theorem counterLaw_of_dispatching {s : State} (hf : s.fsm = .dispatching) :
    CounterLaw s ↔ s.cnt.Sums 0 (pollsOwed s.cmd) (outputsOwed s.cmd) := by
  cases hc : s.cmd <;> simp [CounterLaw, Counters.Sums, pollsOwed, outputsOwed,
    pollInFlight, outputInFlight, one, hf, hc]

/-- Outside DECODING and DISPATCHING nothing is in flight. -/
theorem counterLaw_of_settled {s : State} (hdec : s.fsm ≠ .decoding) (hdis : s.fsm ≠ .dispatching) :
    CounterLaw s ↔ s.cnt.Sums 0 0 0 := by
  cases hf : s.fsm with
  | decoding => exact absurd hf hdec
  | dispatching => exact absurd hf hdis
  | config | starting | idle | receiving | halted =>
    simp [CounterLaw, Counters.Sums, pollInFlight, outputInFlight, one, hf]

theorem Counters.Sums.bump_rx {k : Counters} (h : k.Sums 0 0 0) : (k.bump .rx).Sums 1 0 0 := by
  obtain ⟨hrx, hpoll, hout⟩ := h
  exact ⟨by simpa [Counters.bump] using hrx, hpoll, hout⟩

theorem Counters.Sums.bump_badHeader {k : Counters} (h : k.Sums 1 0 0) :
    (k.bump .badHeader).Sums 0 0 0 := by
  obtain ⟨hrx, hpoll, hout⟩ := h
  exact ⟨by simp only [Counters.bump]; linear_combination hrx, hpoll, hout⟩

theorem Counters.Sums.bump_truncated {k : Counters} (h : k.Sums 1 0 0) :
    (k.bump .truncated).Sums 0 0 0 := by
  obtain ⟨hrx, hpoll, hout⟩ := h
  exact ⟨by simp only [Counters.bump]; linear_combination hrx, hpoll, hout⟩

/-- An accepted command is counted, and from then on owes its result. -/
theorem Counters.Sums.bump_cmdCounter {k : Counters} (h : k.Sums 1 0 0) (i : Instr) :
    (k.bump (cmdCounter i)).Sums 0 (pollsOwed i) (outputsOwed i) := by
  obtain ⟨hrx, hpoll, hout⟩ := h
  refine ⟨?_, ?_, ?_⟩
  · cases i <;> simp only [Counters.bump, cmdCounter] <;> linear_combination hrx
  · cases i <;> simp only [Counters.bump, cmdCounter, pollsOwed] <;> linear_combination hpoll
  · cases i <;> simp only [Counters.bump, cmdCounter, outputsOwed] <;> linear_combination hout

theorem Counters.Sums.bump_sendCounter {k : Counters} (h : k.Sums 0 1 0) (a : SendAnswer) :
    (k.bump (sendCounter a)).Sums 0 0 0 := by
  obtain ⟨hrx, hpoll, hout⟩ := h
  cases a <;> exact ⟨hrx, by simp only [Counters.bump, sendCounter]; linear_combination hpoll, hout⟩

theorem Counters.Sums.bump_writeCounter {k : Counters} (h : k.Sums 0 0 1) (r : WriteResult) :
    (k.bump (writeCounter r)).Sums 0 0 0 := by
  obtain ⟨hrx, hpoll, hout⟩ := h
  cases r <;> exact ⟨hrx, hpoll, by simp only [Counters.bump, writeCounter]; linear_combination hout⟩

theorem BlockTo.counterLaw {s t : State} (h : BlockTo s t) (hl : CounterLaw s) : CounterLaw t := by
  cases h with
  | checkFails _ hf | binds hf | bindFails hf | wakes hf | recvFails hf =>
    rw [counterLaw_of_settled (by simp [hf]) (by simp [hf])] at hl
    exact (counterLaw_of_settled (by simp) (by simp)).2 hl
  | receives d q hf =>
    rw [counterLaw_of_settled (by simp [hf]) (by simp [hf])] at hl
    exact (counterLaw_of_decoding rfl).2 hl.bump_rx
  | dropsHeader hf =>
    rw [counterLaw_of_decoding hf] at hl
    exact (counterLaw_of_settled (by simp) (by simp)).2 hl.bump_badHeader
  | dropsShort op hf =>
    rw [counterLaw_of_decoding hf] at hl
    exact (counterLaw_of_settled (by simp) (by simp)).2 hl.bump_truncated
  | accepts buf i hf =>
    rw [counterLaw_of_decoding hf] at hl
    rw [counterLaw_of_dispatching rfl, State.accept_cnt, State.accept_cmd]
    exact hl.bump_cmdCounter i
  | replies flags diag hf hc =>
    rw [counterLaw_of_dispatching hf, hc] at hl
    exact (counterLaw_of_settled (by simp) (by simp)).2 (hl.bump_sendCounter _)
  | ignores e hf hc =>
    have hl : s.cnt.Sums 0 0 0 := by
      obtain hc | ⟨op, hc⟩ := hc <;>
        simpa [counterLaw_of_dispatching hf, hc, pollsOwed, outputsOwed] using hl
    exact (counterLaw_of_settled (by simp) (by simp)).2 hl
  | transmits seq uni n frame hf hc =>
    rw [counterLaw_of_dispatching hf, hc] at hl
    exact (counterLaw_of_settled (by simp) (by simp)).2 (hl.bump_writeCounter _)

/-- After a reset nothing is counted and nothing is in flight. -/
theorem counterLaw_of_zero {s : State} (hcnt : s.cnt = {}) (hf : s.fsm = .config) : CounterLaw s := by
  rw [counterLaw_of_settled (by simp [hf]) (by simp [hf]), hcnt]
  exact ⟨rfl, rfl, rfl⟩

/-- Settles O32: each step counts a datagram or a command in one sum and puts it in flight in the
next. -/
theorem stepKeepsTheCounterSums : Obligations.StepKeepsTheCounterSums := by
  intro s t hl h
  cases stepTo_of_step h with
  | block ms _ _ h => exact (blockTo_of_blockStep h).counterLaw hl
  | reset | resetMid => exact counterLaw_of_zero rfl rfl
  | start v ms _ hf =>
    rw [counterLaw_of_settled (by simp [hf]) (by simp [hf])] at hl
    exact (counterLaw_of_settled (by simp) (by simp)).2 hl
  | outside => exact hl

/-! ### What a step records -/

/-- A step that records nothing: the history and the line stay, and no result is counted. -/
structure Quiet (s t : State) : Prop where
  hist : t.hist = s.hist
  line : t.env.line = s.env.line
  counters : ∀ c : Counter, c.countedIn = .dispatching → t.cnt.get c = s.cnt.get c

/-- The step that each kind of history entry belongs to (20_memory.md R67). -/
def HistEntry.OwnStep (s : State) : HistEntry → Prop
  | .reply _ _ _ => pollInFlight s = true
  | .frame _ _ _ => outputInFlight s = true
  | .bind _ => s.fsm = .starting

/-- A step that records one entry in the entry's own step: its bytes go on the line, and its counter,
where it has one, counts it. -/
structure Records (s t : State) (e : HistEntry) : Prop where
  hist : t.hist = s.hist ++ [e]
  line : t.env.line = s.env.line ++ e.lineBytes
  counters : ∀ c : Counter, c.countedIn = .dispatching →
    t.cnt.get c = s.cnt.get c + one (e.counter == some c)
  honest : e.honest
  own : e.OwnStep s

theorem Counters.get_bump_eq_add_one (k : Counters) (c c' : Counter) :
    (k.bump c).get c' = k.get c' + one (some c == some c') := by
  rw [Counters.get_bump]
  by_cases h : c' = c
  · simp [h, one]
  · simp [h, Ne.symm h, one]

/-- A count of another FSM state's step is not a result's. -/
theorem Counters.get_bump_of_countedIn_ne {c c' : Counter} {f : Fsm} (k : Counters)
    (hc' : c'.countedIn = f) (hc : c.countedIn ≠ f) : (k.bump c).get c' = k.get c' := by
  rw [Counters.get_bump, if_neg (by rintro rfl; exact hc hc')]

theorem HistEntry.counter_reply (dst : Endpoint) (bytes : List Byte) (a : SendAnswer) :
    (HistEntry.reply dst bytes a).counter = some (sendCounter a) := by
  cases a <;> rfl

theorem HistEntry.counter_frame (frame line : List Byte) (r : WriteResult) :
    (HistEntry.frame frame r line).counter = some (writeCounter r) := by
  cases r <;> rfl

theorem HistEntry.honest_frame (frame : List Byte) (a : TransmitAnswer) :
    (HistEntry.frame frame (writeResult a) (Machine.lineBytes frame a)).honest := by
  cases a with
  | ok => exact lineBytes_of_writeResult_ok frame rfl
  | busBusy | timeout => trivial

theorem countedIn_cmdCounter_ne (i : Instr) : (cmdCounter i).countedIn ≠ .dispatching := by
  cases i <;> simp [cmdCounter, Counter.countedIn]

/-- Each request of the block's own steps is one entry; every other step records nothing. -/
theorem BlockTo.quiet_or_records {s t : State} (h : BlockTo s t) : Quiet s t ∨ ∃ e, Records s t e := by
  cases h with
  | checkFails | wakes | recvFails | ignores => exact .inl ⟨rfl, rfl, fun _ _ => rfl⟩
  | receives | dropsHeader | dropsShort =>
    exact .inl ⟨rfl, rfl, fun c hc => Counters.get_bump_of_countedIn_ne s.cnt hc nofun⟩
  | accepts buf i =>
    refine .inl ⟨by simp, by simp, fun c hc => ?_⟩
    rw [State.accept_cnt, s.cnt.get_bump_of_countedIn_ne hc (countedIn_cmdCounter_ne i)]
  | binds hf | bindFails hf =>
    exact .inr ⟨.bind s.bindAnswer, rfl, (List.append_nil _).symm, fun c _ => (BitVec.add_zero _).symm,
      trivial, hf⟩
  | replies flags diag hf hc =>
    refine .inr ⟨.reply _ _ s.sendAnswer, rfl, (List.append_nil _).symm, fun c _ => ?_, trivial,
      by simp [HistEntry.OwnStep, pollInFlight, hf, hc]⟩
    rw [HistEntry.counter_reply]
    exact Counters.get_bump_eq_add_one ..
  | transmits seq uni n frame hf hc =>
    refine .inr ⟨.frame frame (writeResult s.transmitAnswer) (lineBytes frame s.transmitAnswer), rfl,
      rfl, fun c _ => ?_, HistEntry.honest_frame frame _,
      by simp [HistEntry.OwnStep, outputInFlight, hf, hc]⟩
    rw [HistEntry.counter_frame]
    exact Counters.get_bump_eq_add_one ..

/-- The same of every step that is not a reset. -/
theorem quiet_or_records_of_step {s t : State} (hr : resetNext s = false) (h : step s = .next t) :
    Quiet s t ∨ ∃ e, Records s t e := by
  cases stepTo_of_step h with
  | block ms _ _ h =>
    obtain ⟨hhist, hline, hcnt⟩ | ⟨e, hhist, hline, hcnt, hhonest, hown⟩ :=
      (blockTo_of_blockStep h).quiet_or_records
    · exact .inl ⟨hhist, hline, hcnt⟩
    · exact .inr ⟨e, hhist, hline, hcnt, hhonest, by cases e <;> exact hown⟩
  | reset ms ha => simp [resetNext, ha] at hr
  | resetMid l done entry ms ha => simp [resetNext, ha] at hr
  | start => exact .inl ⟨rfl, rfl, fun _ _ => rfl⟩
  | outside c e _ _ hline => exact .inl ⟨rfl, hline, fun _ _ => rfl⟩

/-- Settles O42: a step records nothing, or one entry in that entry's own step. -/
theorem stepAddsAtMostOneHistoryEntry : Obligations.StepAddsAtMostOneHistoryEntry := by
  intro s t hr h
  obtain hq | ⟨e, he⟩ := quiet_or_records_of_step hr h
  · exact .inl hq.hist
  · exact .inr ⟨e, he.hist, by cases e <;> exact he.own⟩

/-! ### The history since the last reset -/

theorem keptNext_of_not_reset {s : State} (kept : List HistEntry) (hr : resetNext s = false) :
    keptNext kept s = kept := by
  unfold resetNext at hr
  unfold keptNext
  split <;> simp_all

theorem keptNext_reset {s : State} {ms : List Move} (kept : List HistEntry)
    (ha : s.env.agenda = .reset :: ms) : keptNext kept s = [] := by
  simp only [keptNext, ha]

@[simp] theorem interruptedHist_none (s : State) : interruptedHist none s = [] := by
  obtain h | ⟨r, h, -⟩ := interruptedHist_cases none s
  · exact h
  · cases h

theorem interruptedHist_some (r : SendAnswer) (s : State) :
    interruptedHist (some r) s =
      if pollInFlight s then [.reply (replyDst s.rxSrc) (buildReply s.cfg) r] else [] := by
  unfold interruptedHist pollInFlight
  cases s.fsm with
  | dispatching => cases s.cmd <;> rfl
  | config | starting | idle | receiving | decoding | halted => rfl

/-- What a reset in the middle of a step leaves in the history is what the law keeps from then on. -/
theorem keptNext_resetMid {s : State} {l : List Byte} {done : Bool} {entry : Option SendAnswer}
    {ms : List Move} (kept : List HistEntry) (ha : s.env.agenda = .resetMid l done entry :: ms) :
    keptNext kept s = interruptedHist entry (s.withAgenda ms) := by
  cases entry with
  | none => simp only [keptNext, ha, interruptedHist_none]
  | some r =>
    rw [interruptedHist_some]
    simp only [keptNext, ha]
    rfl

theorem historyLaw_of_zero {s : State} (hcnt : s.cnt = {}) : HistoryLaw s.hist s := by
  refine ⟨[], (List.append_nil _).symm, fun c _ => ?_⟩
  rw [hcnt]
  cases c <;> rfl

theorem countedIn_of_mem_resultCounters {c : Counter}
    (hc : c ∈ [Counter.replySent, .replyFail, .writeOk, .busBusy, .timeout]) :
    c.countedIn = .dispatching := by
  cases c <;> simp_all [Counter.countedIn]

theorem HistoryLaw.of_quiet {kept : List HistEntry} {s t : State} (hl : HistoryLaw kept s)
    (hq : Quiet s t) : HistoryLaw kept t := by
  obtain ⟨since, hhist, hcnt⟩ := hl
  refine ⟨since, hq.hist.trans hhist, fun c hc => ?_⟩
  rw [hq.counters c (countedIn_of_mem_resultCounters hc), hcnt c hc]

theorem HistoryLaw.of_records {kept : List HistEntry} {s t : State} {e : HistEntry}
    (hl : HistoryLaw kept s) (he : Records s t e) : HistoryLaw kept t := by
  obtain ⟨since, hhist, hcnt⟩ := hl
  refine ⟨since ++ [e], by rw [he.hist, hhist, List.append_assoc], fun c hc => ?_⟩
  rw [he.counters c (countedIn_of_mem_resultCounters hc), hcnt c hc, List.countP_append,
    List.countP_singleton, BitVec.ofNat_add]
  cases e.counter == some c <;> rfl

/-- Settles O33: an entry and its count come together, and a reset clears the counts and makes what it
leaves the kept entries. -/
theorem stepKeepsCountersEqualToHistory : Obligations.StepKeepsCountersEqualToHistory := by
  intro kept s t hl h
  cases hr : resetNext s with
  | false =>
    rw [keptNext_of_not_reset kept hr]
    obtain hq | ⟨e, he⟩ := quiet_or_records_of_step hr h
    · exact hl.of_quiet hq
    · exact hl.of_records he
  | true =>
    cases stepTo_of_step h with
    | reset ms ha =>
      rw [keptNext_reset kept ha]
      exact historyLaw_of_zero (s := (s.withAgenda ms).applyReset) rfl
    | resetMid l done entry ms ha =>
      rw [keptNext_resetMid kept ha]
      exact historyLaw_of_zero (s := (s.withAgenda ms).applyResetMid l done entry) rfl
    | block ms _ hr' | start v ms hr' | outside c e hr' => simp [hr] at hr'

/-- Settles O38: only resets lead to CONFIG, and they leave the fresh values; START changes none of
them, and the block's own steps lead to neither of the two states. -/
theorem stepKeepsTheBlockFreshBeforeStartup : Obligations.StepKeepsTheBlockFreshBeforeStartup := by
  intro kept s t hl h
  cases stepTo_of_step h with
  | block ms _ _ h => exact fun hf => absurd hf (blockTo_of_blockStep h).not_before_startup
  | reset ms ha =>
    rw [keptNext_reset kept ha]
    exact fun _ => ⟨rfl, rfl, rfl, rfl, rfl, rfl, rfl⟩
  | resetMid l done entry ms ha =>
    rw [keptNext_resetMid kept ha]
    exact fun _ => ⟨rfl, rfl, rfl, rfl, rfl, rfl, rfl⟩
  | start v ms hr hf =>
    rw [keptNext_of_not_reset kept hr]
    exact fun _ => hl (.inl hf)
  | outside c e hr =>
    rw [keptNext_of_not_reset kept hr]
    exact hl

/-! ### The serial line -/

@[simp] theorem Env.afterRecv_line (e : Env) : e.afterRecv.line = e.line := by
  rw [Env.afterRecv_frame]

theorem interruptedEnv_line (l : List Byte) (done : Bool) (s : State) :
    (interruptedEnv l done s).line = s.env.line ++ if outputInFlight s then l else [] := by
  unfold interruptedEnv outputInFlight
  cases s.fsm with
  | config | starting | idle | decoding | halted => simp
  | receiving =>
    cases done with
    | false => simp
    | true => simp
  | dispatching =>
    cases s.cmd with
    | opPoll => cases done <;> simp
    | opPollReply | opOutput | other => simp

theorem lineBytes_interruptedHist (entry : Option SendAnswer) (s : State) :
    (interruptedHist entry s).flatMap HistEntry.lineBytes = [] := by
  obtain h | ⟨r, -, -, -, h⟩ := interruptedHist_cases entry s <;> rw [h] <;> rfl

theorem honest_interruptedHist (entry : Option SendAnswer) (s : State) :
    ∀ e ∈ interruptedHist entry s, e.honest := by
  obtain h | ⟨r, -, -, -, h⟩ := interruptedHist_cases entry s <;> rw [h]
  · simp
  · simp [HistEntry.honest]

theorem LineLaw.of_append {s t : State} {new : List HistEntry} (hl : LineLaw s)
    (hhist : t.hist = s.hist ++ new)
    (hline : t.env.line = s.env.line ++ new.flatMap HistEntry.lineBytes) : LineLaw t := by
  obtain ⟨before, hb⟩ := hl
  exact ⟨before, by rw [hline, hb, hhist, List.flatMap_append, List.append_assoc]⟩

/-- The entries a step that is not a reset adds, as a list. -/
theorem exists_new_entries {s t : State} (hr : resetNext s = false) (h : step s = .next t) :
    ∃ new, t.hist = s.hist ++ new ∧ t.env.line = s.env.line ++ new.flatMap HistEntry.lineBytes ∧
      ∀ e ∈ new, e.honest := by
  obtain hq | ⟨e, he⟩ := quiet_or_records_of_step hr h
  · exact ⟨[], by simp [hq.hist], by simp [hq.line], by simp⟩
  · exact ⟨[e], he.hist, by simp [he.line], by simp [he.honest]⟩

/-- What a reset leaves on the line and in the history. -/
theorem line_of_reset {s t : State} (hr : resetNext s = true) (h : step s = .next t) :
    t.hist.flatMap HistEntry.lineBytes = [] ∧ (∀ e ∈ t.hist, e.honest) ∧
      ∃ l, t.env.line = s.env.line ++ l ∧ (outputInFlight s = false → l = []) := by
  cases stepTo_of_step h with
  | reset ms ha => exact ⟨rfl, by simp [State.reset], [], by simp, fun _ => rfl⟩
  | resetMid l done entry ms ha =>
    refine ⟨lineBytes_interruptedHist entry _, honest_interruptedHist entry _, _,
      interruptedEnv_line l done _, fun hout => ?_⟩
    have hout' : outputInFlight (s.withAgenda ms) = false := hout
    simp [hout']
  | block ms _ hr' | start v ms hr' | outside c e hr' => simp [hr] at hr'

/-- Settles O34: a step that is not a reset puts the bytes of its entries on the line; a reset leaves no
entry with bytes. -/
theorem lineCarriesOnlyTheFrames : Obligations.LineCarriesOnlyTheFrames := by
  intro s t hl hhonest h
  cases hr : resetNext s with
  | false =>
    obtain ⟨new, hhist, hline, hnew⟩ := exists_new_entries hr h
    refine ⟨hl.of_append hhist hline, fun e he => ?_, fun _ => ⟨new, hhist, hline⟩, nofun⟩
    obtain he | he := List.mem_append.1 (hhist ▸ he)
    · exact hhonest e he
    · exact hnew e he
  | true =>
    obtain ⟨hbytes, hentries, hleft⟩ := line_of_reset hr h
    exact ⟨⟨t.env.line, by rw [hbytes, List.append_nil]⟩, hentries, nofun, fun _ => hleft⟩

end Sys2Proof.Machine
end

section
/-!
PROOFS. Decoder and encoder agree, in both directions (30_encoding.md R74 to R87, 40_packet_decoder.md
R92 to R98), the datagrams written out from the spec, and the words of the opcode table.
-/

namespace Sys2Proof.Machine

/-! ### What an accepted datagram is -/

/-- What the decoder checked of a datagram it accepts, row by row. -/
theorem decode_ok_cases {vchk : Bool} {buf : List Byte} {i : Instr} (h : decode vchk buf = .ok i) :
    HeaderValid vchk buf ∧
      ((leAt buf 8 = 0x2000 ∧ 14 ≤ buf.length ∧ i = .opPoll (byteAt buf 12) (byteAt buf 13)) ∨
      (leAt buf 8 = 0x2100 ∧ i = .opPollReply) ∨
      (leAt buf 8 = 0x5000 ∧ 18 ≤ buf.length ∧ beAt buf 16 ≤ 512 ∧ 18 + beAt buf 16 ≤ buf.length ∧
        i = .opOutput (byteAt buf 12) (u16le buf 14) (BitVec.ofNat 10 (beAt buf 16))) ∨
      (leAt buf 8 ≠ 0x2000 ∧ leAt buf 8 ≠ 0x2100 ∧ leAt buf 8 ≠ 0x5000 ∧ i = .other (u16le buf 8))) := by
  by_cases hv : HeaderValid vchk buf
  · refine ⟨hv, ?_⟩
    rw [decode_of_headerValid hv, decodeOutput_eq] at h
    split_ifs at h with hpoll hreply hout hbad
    · refine .inl ⟨hpoll, ?_⟩
      by_cases hlen : buf.length < 14
      · rw [decodePoll_of_short hlen] at h
        cases h
      · rw [decodePoll_of_whole (by omega)] at h
        cases h
        exact ⟨by omega, rfl⟩
    · cases h
      exact .inr (.inl ⟨hreply, rfl⟩)
    · cases h
      exact .inr (.inr (.inl ⟨hout, by omega, by omega, by omega, rfl⟩))
    · cases h
      exact .inr (.inr (.inr ⟨hpoll, hreply, hout, rfl⟩))
  · rw [decode_of_not_headerValid hv] at h
    cases h

/-! ### The two bytes of a half-word -/

@[simp] theorem lowByte_append (hi lo : Byte) : lowByte (hi ++ lo) = lo := by
  rw [lowByte, BitVec.extractLsb'_append_eq_of_add_le (by decide), BitVec.extractLsb'_eq_self]

@[simp] theorem highByte_append (hi lo : Byte) : highByte (hi ++ lo) = hi := by
  rw [highByte, BitVec.extractLsb'_append_eq_of_le (by decide), Nat.sub_self,
    BitVec.extractLsb'_eq_self]

theorem drop_eq_two_bytes {buf : List Byte} {k : Nat} (h : k + 2 ≤ buf.length) :
    buf.drop k = byteAt buf k :: byteAt buf (k + 1) :: buf.drop (k + 2) := by
  rw [List.drop_eq_getElem_cons (by omega), List.drop_eq_getElem_cons (by omega), byteAt, byteAt,
    List.getD_eq_getElem _ _ (by omega), List.getD_eq_getElem _ _ (by omega)]

/-- Two bytes read low byte first and written low byte first are the same two bytes. -/
theorem drop_eq_u16le {buf : List Byte} {k : Nat} (h : k + 2 ≤ buf.length) :
    buf.drop k = lowByte (u16le buf k) :: highByte (u16le buf k) :: buf.drop (k + 2) := by
  rw [u16le, lowByte_append, highByte_append, ← drop_eq_two_bytes h]

theorem drop_eq_u16be {buf : List Byte} {k : Nat} (h : k + 2 ≤ buf.length) :
    buf.drop k = highByte (u16be buf k) :: lowByte (u16be buf k) :: buf.drop (k + 2) := by
  rw [u16be, lowByte_append, highByte_append, ← drop_eq_two_bytes h]

/-- The length field and the latch's 10-bit length are the same number where R97 accepts it. -/
theorem setWidth_ofNat_beAt {buf : List Byte} {k : Nat} (h : beAt buf k ≤ 512) :
    (BitVec.ofNat 10 (beAt buf k)).setWidth 16 = u16be buf k := by
  rw [← BitVec.toNat_inj, BitVec.toNat_setWidth, BitVec.toNat_ofNat, u16be_toNat]
  omega

/-- The length field of an encoded Output reads back as its length. -/
theorem toNat_length_field (n : BitVec 10) :
    256 * (highByte (n.setWidth 16)).toNat + (lowByte (n.setWidth 16)).toNat = n.toNat := by
  rw [← toNat_append_bytes, Laws.append_low_high, BitVec.toNat_setWidth]
  omega

/-! ### An accepted datagram is an encoding -/

theorem Instr.wf_opOutput_iff {seq : Byte} {uni : Half} {n : BitVec 10} :
    (Instr.opOutput seq uni n).wf = true ↔ n.toNat ≤ 512 := by
  rw [Instr.wf, Instr.opcodeOk, Bool.and_true, Instr.lengthOk, decide_eq_true_iff, Config.maxChannels]

theorem Instr.wf_other_iff {op : Half} :
    (Instr.other op).wf = true ↔ op ≠ 0x2000 ∧ op ≠ 0x2100 ∧ op ≠ 0x5000 := by
  simp [Instr.wf, Instr.lengthOk, Instr.opcodeOk, and_assoc]

/-- With the version checked, a datagram whose header passes begins with the header of its opcode. -/
theorem eq_header_append {buf : List Byte} (h : HeaderValid true buf) :
    buf = header (u16le buf 8) Config.protVer ++ buf.drop 12 := by
  obtain ⟨-, hid, hlen, hver | ⟨-, hchk⟩⟩ := h
  · have hver' : u16be buf 10 = Config.protVer := u16be_eq_iff.2 hver
    calc buf
      _ = buf.take 8 ++ buf.drop 8 := (List.take_append_drop 8 buf).symm
      _ = artNetId ++ buf.drop 8 := by rw [hid, artNetId]
      _ = header (u16le buf 8) Config.protVer ++ buf.drop 12 := by
        rw [drop_eq_u16le (by omega), drop_eq_u16be (by omega), hver']
        rfl
  · cases hchk

/-- Settles O3: the header gives the first 12 bytes back, and behind it each row reads every byte its
format has but the Physical byte. -/
theorem acceptedDatagramIsAnEncoding : Obligations.AcceptedDatagramIsAnEncoding := by
  intro buf i h
  obtain ⟨hv, hrow⟩ := decode_ok_cases h
  have hbuf := eq_header_append hv
  have hlen : 12 ≤ buf.length := by
    obtain ⟨-, -, hlen, -⟩ := hv
    exact hlen
  obtain ⟨hop, h14, rfl⟩ | ⟨hop, rfl⟩ | ⟨hop, h18, hmax, hfit, rfl⟩ | ⟨hpoll, hreply, hout, rfl⟩ := hrow
  · refine ⟨rfl, h14, 0, [], buf.drop 14, rfl, ?_⟩
    rw [u16le_eq_iff (h := 0x2000).2 hop, drop_eq_two_bytes h14] at hbuf
    simpa [encodeWith] using hbuf
  · refine ⟨rfl, hlen, 0, [], buf.drop 12, rfl, ?_⟩
    rwa [u16le_eq_iff (h := 0x2100).2 hop] at hbuf
  · have hn : (BitVec.ofNat 10 (beAt buf 16)).toNat = beAt buf 16 := by
      rw [BitVec.toNat_ofNat]
      omega
    refine ⟨Instr.wf_opOutput_iff.2 (by rwa [hn]), h18,
      byteAt buf 13, (buf.drop 18).take (beAt buf 16), (buf.drop 18).drop (beAt buf 16), ?_, ?_⟩
    · rw [Instr.channels, hn, List.length_take, List.length_drop]
      omega
    · rw [u16le_eq_iff (h := 0x5000).2 hop, drop_eq_two_bytes (by omega), drop_eq_u16le (by omega),
        drop_eq_u16be (by omega), ← setWidth_ofNat_beAt hmax] at hbuf
      simpa [encodeWith] using hbuf
  · refine ⟨Instr.wf_other_iff.2 ?_, hlen, 0, [], buf.drop 12, rfl, hbuf⟩
    simp [u16le_eq_iff, hpoll, hreply, hout]

/-! ### An encoding is accepted -/

theorem headerValid_header (vchk : Bool) (op : Half) (tail : List Byte) :
    HeaderValid vchk (header op Config.protVer ++ tail) :=
  ⟨by simp [header, artNetId], rfl, by simp [header, artNetId], .inl rfl⟩

theorem u16le_header (op ver : Half) (tail : List Byte) : u16le (header op ver ++ tail) 8 = op :=
  Laws.append_low_high op

/-- The row of the opcode map decodes what stands behind the header, whatever VCHK_POLLREPLY is. -/
theorem decode_header (vchk : Bool) (op : Half) (tail : List Byte) :
    decode vchk (header op Config.protVer ++ tail) =
      if op = 0x2000 then decodePoll (header op Config.protVer ++ tail)
      else if op = 0x2100 then decodePollReply
      else if op = 0x5000 then decodeOutput (header op Config.protVer ++ tail)
      else decodeOther op := by
  rw [decode, if_pos (headerOk_iff.2 (headerValid_header vchk op tail)), u16le_header]

theorem decodeOutput_encodeWith (phys seq : Byte) (uni : Half) {n : BitVec 10} {data : List Byte}
    (rest : List Byte) (hn : n.toNat ≤ 512) (hdata : data.length = n.toNat) :
    decodeOutput (encodeWith phys data (.opOutput seq uni n) ++ rest) = .ok (.opOutput seq uni n) := by
  have hlen : beAt (encodeWith phys data (.opOutput seq uni n) ++ rest) 16 = n.toNat :=
    toNat_length_field n
  have huni : u16le (encodeWith phys data (.opOutput seq uni n) ++ rest) 14 = uni :=
    Laws.append_low_high uni
  have hsize : (encodeWith phys data (.opOutput seq uni n) ++ rest).length =
      18 + n.toNat + rest.length := by
    simp [encodeWith, header, artNetId, hdata]
    omega
  rw [decodeOutput_eq, hlen, huni, hsize, if_neg (by omega), BitVec.ofNat_toNat, BitVec.setWidth_eq]
  rfl

/-- Settles O2: the header selects the row, and the row reads its fields back. -/
theorem encodedCommandDecodesToItself : Obligations.EncodedCommandDecodesToItself := by
  intro i vchk phys data rest hwf hdata
  cases i with
  | opPoll flags diag =>
    rw [encodeWith, List.append_assoc, decode_header, if_pos rfl]
    exact decodePoll_of_whole (by simp [header, artNetId])
  | opPollReply =>
    rw [encodeWith, decode_header, if_neg (by decide), if_pos rfl, decodePollReply]
  | opOutput seq uni n =>
    have hn := Instr.wf_opOutput_iff.1 hwf
    have hrow := decodeOutput_encodeWith phys seq uni rest hn hdata
    rw [encodeWith, List.append_assoc, List.append_assoc] at hrow ⊢
    rw [decode_header, if_neg (by decide), if_neg (by decide), if_pos rfl]
    exact hrow
  | other op =>
    obtain ⟨hpoll, hreply, hout⟩ := Instr.wf_other_iff.1 hwf
    rw [encodeWith, decode_header, if_neg hpoll, if_neg hreply, if_neg hout, decodeOther]

/-- Settles O1: six datagrams of closed bytes, which the decoder evaluates. -/
theorem specDatagramsDecode : Obligations.SpecDatagramsDecode := by
  unfold Obligations.SpecDatagramsDecode
  decide

/-! ### The words of the opcode table -/

/-- The row of the opcode map a word without operands selects (30_encoding.md R83). -/
def opcodeRow (w : Nat) : Instr :=
  if w = 0x2000 then .opPoll 0 0
  else if w = 0x2100 then .opPollReply
  else if w = 0x5000 then .opOutput 0 0 0
  else .other (BitVec.ofNat 16 w)

theorem opcodeRow_wf {w : Nat} (hw : w < 65536) : (opcodeRow w).wf = true := by
  unfold opcodeRow
  split_ifs with hpoll hreply hout
  · rfl
  · rfl
  · rfl
  · have ne : ∀ v < 65536, w ≠ v → BitVec.ofNat 16 w ≠ BitVec.ofNat 16 v := by
      intro v hv hne h
      rw [← BitVec.toNat_inj, BitVec.toNat_ofNat, BitVec.toNat_ofNat] at h
      omega
    exact Instr.wf_other_iff.2
      ⟨ne 0x2000 (by decide) hpoll, ne 0x2100 (by decide) hreply, ne 0x5000 (by decide) hout⟩

theorem natByte_eq_zero {w k : Nat} (hw : w < 65536) (hk : 2 ≤ k) : natByte w k = 0 := by
  have hpow : 2 ^ 16 ≤ 2 ^ (8 * k) := Nat.pow_le_pow_right (by decide) (by omega)
  rw [natByte, Nat.shiftRight_eq_div_pow, Nat.div_eq_of_lt (by omega)]
  rfl

/-- A word of 16 bits is the opcode behind the identifier, and six zero operand bytes. -/
theorem tableDatagram_opcode {w : Nat} (hw : w < 65536) :
    tableDatagram 16 w = header (BitVec.ofNat 16 w) Config.protVer ++ List.replicate 6 0 := by
  have hmod : w % 65536 = w := Nat.mod_eq_of_lt hw
  have hlow : natByte w 0 = lowByte (BitVec.ofNat 16 w) := by
    rw [← BitVec.toNat_inj]
    simp [natByte, lowByte]
  have hhigh : natByte w 1 = highByte (BitVec.ofNat 16 w) := by
    rw [← BitVec.toNat_inj]
    simp [natByte, highByte]
    omega
  have hzero : ∀ k, natByte w (k + 2) = 0 := fun k => natByte_eq_zero hw (by omega)
  simp [tableDatagram, header, hmod, hlow, hhigh, hzero, List.map_const']

theorem tableDatagram_eq_encodeWith {w : Nat} (hw : w < 65536) :
    ∃ rest, tableDatagram 16 w = encodeWith 0 [] (opcodeRow w) ++ rest := by
  rw [tableDatagram_opcode hw, opcodeRow]
  split_ifs with hpoll hreply hout
  · exact ⟨List.replicate 4 0, by rw [hpoll]; rfl⟩
  · exact ⟨List.replicate 6 0, by rw [hreply]; rfl⟩
  · exact ⟨[], by rw [hout]; rfl⟩
  · exact ⟨List.replicate 6 0, rfl⟩

theorem decode_tableDatagram (vchk : Bool) {w : Nat} (hw : w < 65536) :
    decode vchk (tableDatagram 16 w) = .ok (opcodeRow w) := by
  obtain ⟨rest, h⟩ := tableDatagram_eq_encodeWith hw
  have hchannels : (opcodeRow w).channels = 0 := by
    unfold opcodeRow
    split_ifs <;> rfl
  rw [h]
  exact encodedCommandDecodesToItself _ vchk 0 [] rest (opcodeRow_wf hw) hchannels.symm

theorem step_of_dispatching {s : State} (hf : s.fsm = .dispatching) (ha : s.env.agenda = []) :
    step s = exec s.cmd s := by
  rw [step_of_agenda_nil ha, blockStep, hf]

theorem State.loadCommand_of_decode_ok {s : State} {bytes : List Byte} {i : Instr}
    (hd : decode s.build.vchkPollReply (bytes.take s.build.rxCap) = .ok i) :
    (s.loadCommand bytes).fsm = .dispatching ∧ (s.loadCommand bytes).cmd = i ∧
      (s.loadCommand bytes).env.agenda = [] := by
  simp [State.loadCommand, hd]

/-- Settles O4: the word's datagram is an encoding of its row's command, short enough for the latch. -/
theorem everyOpcodeWordRunsItsRow : Obligations.EveryOpcodeWordRunsItsRow := by
  intro w s hw hcap i
  have hfits : (tableDatagram 16 w).take s.build.rxCap = tableDatagram 16 w := by
    rw [List.take_of_length_le]
    simpa [tableDatagram_opcode hw, header, artNetId] using hcap
  have hd : decode s.build.vchkPollReply ((tableDatagram 16 w).take s.build.rxCap) = .ok i := by
    rw [hfits]
    exact decode_tableDatagram _ hw
  obtain ⟨hf, hcmd, ha⟩ := State.loadCommand_of_decode_ok hd
  refine ⟨?_, hcmd, ?_⟩
  · rw [decodeTableWord, decode_tableDatagram _ hw]
    rfl
  · rw [State.withFetchWord, step_of_dispatching hf ha, hcmd]

end Sys2Proof.Machine
end

section
/-!
PROOFS. The datagram latch and the command latch (10_state.md R29, R31): what every step keeps of them,
that no step of a good state reads a byte without a value, and that bytes past `rx_len` are never read.
-/

namespace Sys2Proof.Machine

/-! ### The datagram latch -/

theorem rxPending_iff {s : State} : rxPending s = true ↔ s.env.rxFatal = true ∨ s.env.rxq ≠ [] := by
  simp [rxPending]

/-- A latched datagram is written wherever `rx_len` says it is. -/
theorem LatchLaw.latch {s : State} (hl : LatchLaw s) (d : Datagram) : LatchLaw (s.latch d) := by
  obtain ⟨hwf, hcap, -, -⟩ := hl
  refine ⟨Memory.write_wf hwf _ _, fun c hc => ?_, Nat.min_le_right _ _, fun a ha => ?_⟩
  · obtain hc | ⟨-, hc⟩ := Memory.mem_write hc
    · exact hcap c hc
    · rw [Nat.zero_add, List.length_take] at hc
      exact Nat.lt_of_lt_of_le hc (Nat.min_le_left _ _)
  · rw [State.latch_rxLen] at ha
    rw [State.latch_read, if_pos ha, List.getElem?_eq_getElem (by omega), Option.isSome_some]

/-- The law is about the buffer, `rx_len` and the build. -/
theorem LatchLaw.congr {s t : State} (hl : LatchLaw s) (hbuf : t.rxBuf = s.rxBuf)
    (hlen : t.rxLen = s.rxLen) (hbuild : t.build = s.build) : LatchLaw t := by
  rwa [LatchLaw, hbuf, hlen, hbuild]

theorem BlockTo.latchLaw {s t : State} (h : BlockTo s t) (hl : LatchLaw s) : LatchLaw t := by
  cases h with
  | checkFails | binds | bindFails | wakes | recvFails | dropsHeader | dropsShort | replies | ignores
  | transmits => exact hl.congr rfl rfl rfl
  | accepts buf i => exact hl.congr (by simp) (by simp) (by simp)
  | receives d q => exact LatchLaw.latch (s := { s with env := { s.env with rxq := q } }) hl d

/-- Under the law the whole datagram can be read. -/
theorem LatchLaw.memRead {s : State} (hl : LatchLaw s) : ∃ buf, s.memRead 0 s.rxLen = some buf := by
  obtain ⟨hwf, -, -, hwritten⟩ := hl
  rw [State.memRead_of_le (by omega)]
  exact Memory.readRange_isSome hwf 0 s.rxLen fun k hk => hwritten (0 + k) (by omega)

/-! ### The command latch -/

theorem State.memRead_accept (s : State) (i : Instr) (a n : Nat) :
    (s.accept i).memRead a n = s.memRead a n := by
  cases i <;> rfl

theorem CommandLaw.of_not_dispatching {s : State} (hf : s.fsm ≠ .dispatching) : CommandLaw s :=
  fun h => absurd h hf

theorem PendingLaw.of_not_receiving {s : State} (hf : s.fsm ≠ .receiving) : PendingLaw s :=
  fun h => absurd h hf

/-- DISPATCHING is entered where the latched datagram has just been decoded. -/
theorem BlockTo.commandLaw {s t : State} (h : BlockTo s t) : CommandLaw t := by
  cases h with
  | accepts buf i hf hbuf hd =>
    intro _
    rw [State.memRead_accept, State.accept_rxLen, State.accept_build, State.accept_cmd,
      State.accept_lastOpcode]
    exact ⟨buf, hbuf, hd, rfl⟩
  | checkFails | binds | bindFails | wakes | recvFails | receives | dropsHeader | dropsShort | replies
  | ignores | transmits => exact .of_not_dispatching (by simp)

/-- RECEIVING is entered where something is pending. -/
theorem BlockTo.pendingLaw {s t : State} (h : BlockTo s t) : PendingLaw t := by
  cases h with
  | wakes hf hp => exact fun _ => rxPending_iff.1 hp
  | checkFails | binds | bindFails | recvFails | receives | dropsHeader | dropsShort | accepts | replies
  | ignores | transmits => exact .of_not_receiving (by simp)

theorem good_of_empty_latch {s : State} (hbuf : s.rxBuf = []) (hlen : s.rxLen = 0)
    (hf : s.fsm = .config) : Good s := by
  refine ⟨?_, .of_not_dispatching (by simp [hf]), .of_not_receiving (by simp [hf])⟩
  simp [LatchLaw, hbuf, hlen]

/-- Settles O35: the latch is written where a datagram is received, the command where that datagram is
decoded, and no agent takes away what is pending. -/
theorem stepKeepsTheLatchesGood : Obligations.StepKeepsTheLatchesGood := by
  intro s t hgood h
  obtain ⟨hlatch, hcmd, hpend⟩ := hgood
  cases stepTo_of_step h with
  | block ms _ _ h =>
    have hto := blockTo_of_blockStep h
    exact ⟨hto.latchLaw hlatch, hto.commandLaw, hto.pendingLaw⟩
  | reset | resetMid => exact good_of_empty_latch rfl rfl rfl
  | start v ms => exact ⟨hlatch, .of_not_dispatching (by simp), .of_not_receiving (by simp)⟩
  | outside c e _ _ _ hp =>
    exact ⟨hlatch, hcmd, fun hf => rxPending_iff.1 (hp (rxPending_iff.2 (hpend hf)))⟩

/-- Settles O39: nothing is counted, recorded or latched. -/
theorem resetMeetsTheInvariants : Obligations.ResetMeetsTheInvariants :=
  ⟨counterLaw_of_zero rfl rfl, historyLaw_of_zero (s := State.reset) rfl, ⟨[], rfl⟩,
    good_of_empty_latch rfl rfl rfl, by simp [HaltLaw, State.reset],
    fun _ => ⟨rfl, rfl, rfl, rfl, rfl, rfl, rfl⟩, List.Pairwise.nil⟩

/-! ### Where the block has a step -/

/-- A command that the latched datagram decodes to has a next state: an Output's channel data lies in
the datagram. -/
theorem exec_of_decoded {vchk : Bool} {s : State} {buf : List Byte} {i : Instr}
    (hbuf : s.memRead 0 s.rxLen = some buf) (hd : decode vchk buf = .ok i) :
    ∃ t, exec i s = .next t := by
  obtain ⟨-, ⟨-, -, rfl⟩ | ⟨-, rfl⟩ | ⟨-, -, hmax, hfit, rfl⟩ | ⟨-, -, -, rfl⟩⟩ := decode_ok_cases hd
  · exact ⟨_, rfl⟩
  · exact ⟨_, rfl⟩
  · have hn : (BitVec.ofNat 10 (beAt buf 16)).toNat = beAt buf 16 := by
      rw [BitVec.toNat_ofNat]
      omega
    have hdata : s.channelData (BitVec.ofNat 10 (beAt buf 16)) =
        some ((buf.drop 18).take (beAt buf 16)) := by
      rw [State.channelData, hn, State.memRead_sub hbuf hfit]
    exact ⟨_, exec_opOutput_of_channelData _ _ hdata⟩
  · exact ⟨_, rfl⟩

/-- At a run's end the block's step is one of the three faults that say so. -/
theorem blockStep_of_atRunEnd {s : State} (h : AtRunEnd s) :
    blockStep s = .fault .haltedStops ∨ blockStep s = .fault .configWaits ∨
      blockStep s = .fault .idleWaits := by
  obtain hf | hf | ⟨hf, hfatal, hq⟩ := h
  · exact .inl (by simp [blockStep, hf, haltedStep])
  · exact .inr (.inl (by simp [blockStep, hf, configStep]))
  · exact .inr (.inr (by simp [blockStep, hf, idleStep, rxPending, hfatal, hq]))

theorem receiveStep_fatal {s : State} (hfatal : s.env.rxFatal = true) :
    receiveStep s = .next ({ s with env := { s.env with rxFatal := false } }.halt .recvFatal) := by
  rw [receiveStep, if_pos hfatal, Env.afterRecv_fatal hfatal]

theorem receiveStep_nothing {s : State} (hfatal : s.env.rxFatal = false) (hq : s.env.rxq = []) :
    receiveStep s = .fault .recvUnanswered := by
  simp only [receiveStep, hfatal, hq, Bool.false_eq_true, if_false]

theorem receiveStep_datagram {s : State} {d : Datagram} {q : List Datagram}
    (hfatal : s.env.rxFatal = false) (hq : s.env.rxq = d :: q) :
    receiveStep s =
      .next ((({ s with env := { s.env with rxq := q } }.latch d).count .rx).goto .decoding) := by
  simp only [receiveStep, hfatal, hq, Bool.false_eq_true, if_false, Env.afterRecv_datagram hfatal hq]

theorem receiveStep_of_pending {s : State} (hp : s.env.rxFatal = true ∨ s.env.rxq ≠ []) :
    ∃ t, receiveStep s = .next t := by
  cases hfatal : s.env.rxFatal with
  | true => exact ⟨_, receiveStep_fatal hfatal⟩
  | false =>
    cases hq : s.env.rxq with
    | nil => simp [hfatal, hq] at hp
    | cons d q => exact ⟨_, receiveStep_datagram hfatal hq⟩

/-- Everywhere else a good state has a next one. -/
theorem blockStep_of_good {s : State} (hgood : Good s) (hrun : ¬ AtRunEnd s) :
    ∃ t, blockStep s = .next t := by
  obtain ⟨hlatch, hcmd, hpend⟩ := hgood
  cases hf : s.fsm with
  | config => exact absurd (.inr (.inl hf)) hrun
  | halted => exact absurd (.inl hf) hrun
  | starting => exact ⟨startStep s, by simp only [blockStep, hf]⟩
  | idle =>
    have hp : rxPending s = true := by
      rw [rxPending_iff]
      by_contra hnone
      simp only [not_or, Bool.not_eq_true, Decidable.not_not] at hnone
      exact hrun (.inr (.inr ⟨hf, hnone⟩))
    exact ⟨s.goto .receiving, by simp only [blockStep, hf, idleStep, hp, if_true]⟩
  | receiving => simpa only [blockStep, hf] using receiveStep_of_pending (hpend hf)
  | decoding =>
    obtain ⟨buf, hbuf⟩ := hlatch.memRead
    exact ⟨_, by simp only [blockStep, hf, decodeStep, hbuf]; rfl⟩
  | dispatching =>
    obtain ⟨buf, hbuf, hd, -⟩ := hcmd hf
    simpa only [blockStep, hf] using exec_of_decoded hbuf hd

theorem blockEnabled_eq_false_iff {s : State} : blockEnabled s = false ↔ AtRunEnd s := by
  cases hf : s.fsm <;> simp [blockEnabled, AtRunEnd, rxPending, hf]

/-- Settles O59: the ends are where the FSM is not enabled, and a good state has a step at all other
places. -/
theorem runEndsExactlyWhereTheRulesSay : Obligations.RunEndsExactlyWhereTheRulesSay := by
  intro s hgood ha
  rw [step_of_agenda_nil ha]
  refine ⟨blockEnabled_eq_false_iff, fun ⟨t, ht⟩ hend => ?_, blockStep_of_good hgood⟩
  obtain h | h | h := blockStep_of_atRunEnd hend <;> simp [h] at ht

/-- The faults that the block's step can end in from a good state. -/
theorem blockStep_fault_of_good {s : State} {f : Fault} (hgood : Good s)
    (h : blockStep s = .fault f) : f = .haltedStops ∨ f = .configWaits ∨ f = .idleWaits := by
  by_cases hend : AtRunEnd s
  · obtain h' | h' | h' := blockStep_of_atRunEnd hend <;> simp_all
  · obtain ⟨t, ht⟩ := blockStep_of_good hgood hend
    simp [ht] at h

theorem agentMove_ne_fault (m : Move) (s : State) (f : Fault) : agentMove m s ≠ .fault f := by
  cases m with
  | host op =>
    intro h
    obtain h | ⟨off, bytes, -, -, h⟩ | ⟨off, bytes, v, -, -, h⟩ := hostAccess_cases h <;> cases h
  | block | reset | resetMid | setNetReady | setSinkReady | arrive | signalRxFatal => nofun

theorem step_fault_of_good {s : State} {f : Fault} (hgood : Good s) (h : step s = .fault f) :
    f = .haltedStops ∨ f = .configWaits ∨ f = .idleWaits := by
  obtain ⟨-, h⟩ | ⟨ms, -, h⟩ | ⟨m, ms, -, h⟩ := step_cases h
  · exact blockStep_fault_of_good hgood h
  · exact blockStep_fault_of_good (s := s.withAgenda ms) hgood h
  · exact absurd h (agentMove_ne_fault m _ f)

/-- Settles O36: a good state's step faults at a run's end only. -/
theorem goodStateNeverReadsAnUnwrittenByte : Obligations.GoodStateNeverReadsAnUnwrittenByte := by
  intro s hgood
  exact ⟨fun h => by simpa using step_fault_of_good hgood h,
    fun h => by simpa using step_fault_of_good hgood h⟩

/-! ### Bytes past the datagram -/

/-- The state with another buffer behind the datagram latch. -/
def State.withBuf (m : Memory) (s : State) : State := { s with rxBuf := m }

@[simp] theorem State.withBuf_fsm (m : Memory) (s : State) : (s.withBuf m).fsm = s.fsm := rfl

@[simp] theorem State.withBuf_rxLen (m : Memory) (s : State) : (s.withBuf m).rxLen = s.rxLen := rfl

@[simp] theorem State.withBuf_cmd (m : Memory) (s : State) : (s.withBuf m).cmd = s.cmd := rfl

@[simp] theorem State.withBuf_cfg (m : Memory) (s : State) : (s.withBuf m).cfg = s.cfg := rfl

@[simp] theorem State.withBuf_build (m : Memory) (s : State) : (s.withBuf m).build = s.build := rfl

@[simp] theorem State.withBuf_env (m : Memory) (s : State) : (s.withBuf m).env = s.env := rfl

/-- A change to the next state, where there is one. -/
def onNext (f : State → State) : Host.Outcome State Fault Refusal → Host.Outcome State Fault Refusal
  | .next t => .next (f t)
  | .fault r => .fault r
  | .refused r => .refused r

/-- Two buffers that hold the same datagram are read alike. -/
theorem State.memRead_withBuf {s : State} {m : Memory} (hwf : Memory.wf s.rxBuf) (hm : Memory.wf m)
    (heq : ∀ a < s.rxLen, Memory.read m a = Memory.read s.rxBuf a) (a n : Nat) :
    (s.withBuf m).memRead a n = s.memRead a n := by
  refine Option.ext fun bs => ?_
  rw [State.memRead_eq_some_iff (s := s.withBuf m) hm, State.memRead_eq_some_iff hwf]
  refine and_congr_right fun hle => and_congr_right fun _ => forall₂_congr fun k hk => ?_
  have hle : a + n ≤ s.rxLen := hle
  rw [State.withBuf, heq (a + k) (by omega)]

theorem startStep_withBuf (s : State) (m : Memory) :
    startStep (s.withBuf m) = (startStep s).withBuf m := by
  have hbind : (s.withBuf m).bindAnswer = s.bindAnswer := rfl
  unfold startStep
  rw [State.withBuf_env, State.withBuf_build, State.withBuf_cfg, hbind]
  split_ifs
  · rfl
  · rfl
  · rfl
  · cases s.bindAnswer <;> rfl

theorem idleStep_withBuf (s : State) (m : Memory) :
    idleStep (s.withBuf m) = onNext (State.withBuf m) (idleStep s) := by
  have hp : rxPending (s.withBuf m) = rxPending s := rfl
  unfold idleStep
  rw [hp]
  split_ifs <;> rfl

theorem State.decoded_withBuf (buf : List Byte) (r : DecodeResult) (s : State) (m : Memory) :
    State.decoded buf r (s.withBuf m) = (State.decoded buf r s).withBuf m := by
  cases r with
  | ok i => cases i <;> rfl
  | err e => cases e <;> rfl

theorem decodeStep_withBuf {s : State} {m : Memory}
    (hread : ∀ a n, (s.withBuf m).memRead a n = s.memRead a n) :
    decodeStep (s.withBuf m) = onNext (State.withBuf m) (decodeStep s) := by
  unfold decodeStep
  rw [State.withBuf_rxLen, hread]
  cases s.memRead 0 s.rxLen with
  | none => rfl
  | some buf =>
    simp only [State.decoded_withBuf, State.withBuf_build]
    rfl

theorem exec_withBuf {s : State} {m : Memory}
    (hread : ∀ a n, (s.withBuf m).memRead a n = s.memRead a n) (i : Instr) :
    exec i (s.withBuf m) = onNext (State.withBuf m) (exec i s) := by
  cases i with
  | opPoll | opPollReply | other => rfl
  | opOutput seq uni n =>
    simp only [exec, execOpOutput, State.channelData, hread]
    cases s.memRead 18 n.toNat <;> rfl

/-- Outside RECEIVING the block's step reads the buffer through `MemRead` alone, and keeps it. -/
theorem blockStep_withBuf {s : State} {m : Memory}
    (hread : ∀ a n, (s.withBuf m).memRead a n = s.memRead a n) (hne : s.fsm ≠ .receiving) :
    blockStep (s.withBuf m) = onNext (State.withBuf m) (blockStep s) := by
  unfold blockStep
  rw [State.withBuf_fsm, State.withBuf_cmd]
  cases hf : s.fsm with
  | config | halted => rfl
  | starting => simp only [startStep_withBuf]; rfl
  | idle => exact idleStep_withBuf s m
  | receiving => exact absurd hf hne
  | decoding => exact decodeStep_withBuf hread
  | dispatching => exact exec_withBuf hread s.cmd

theorem State.writeReg_withBuf (s : State) (m : Memory) (r : Reg) (v : Word) :
    (s.withBuf m).writeReg r v = (s.writeReg r v).withBuf m := by
  unfold State.writeReg
  rw [State.withBuf_fsm]
  split_ifs <;> rfl

theorem hostAccess_withBuf (op : HostOp) (s : State) (m : Memory) :
    hostAccess op (s.withBuf m) = onNext (State.withBuf m) (hostAccess op s) := by
  cases op with
  | read off bytes =>
    have hreg : (s.withBuf m).readReg (regAt off) = s.readReg (regAt off) := by
      cases regAt off <;> rfl
    simp only [hostAccess, hreg]
    split_ifs <;> rfl
  | write off bytes v =>
    simp only [hostAccess, State.writeReg_withBuf]
    split_ifs <;> rfl

theorem arrive_withBuf (d : Datagram) (s : State) (m : Memory) :
    arrive d (s.withBuf m) = (arrive d s).withBuf m := by
  unfold arrive
  rw [State.withBuf_env, State.withBuf_build]
  split_ifs <;> rfl

/-- Every move of an agent but the resets keeps the buffer and does not read it. -/
theorem agentMove_withBuf {mv : Move} (hreset : mv ≠ .reset)
    (hmid : ∀ l done entry, mv ≠ .resetMid l done entry) (s : State) (m : Memory) :
    agentMove mv (s.withBuf m) = onNext (State.withBuf m) (agentMove mv s) := by
  cases mv with
  | block | setNetReady | setSinkReady | signalRxFatal => rfl
  | host op => exact hostAccess_withBuf op s m
  | arrive d => simp only [agentMove, arrive_withBuf]; rfl
  | reset => exact absurd rfl hreset
  | resetMid l done entry => exact absurd rfl (hmid l done entry)

theorem agentMove_latch {mv : Move} (hreset : mv ≠ .reset)
    (hmid : ∀ l done entry, mv ≠ .resetMid l done entry) {s t : State}
    (h : agentMove mv s = .next t) : t.rxLen = s.rxLen ∧ t.rxBuf = s.rxBuf := by
  cases mv with
  | block | setNetReady | setSinkReady | signalRxFatal => cases h; exact ⟨rfl, rfl⟩
  | host op =>
    obtain h | ⟨off, bytes, -, -, h⟩ | ⟨off, bytes, v, -, -, h⟩ := hostAccess_cases h <;> cases h
    · exact ⟨rfl, rfl⟩
    · obtain hw | ⟨-, -, -, hw⟩ | ⟨-, -, hw⟩ := s.writeReg_cases (regAt off) v <;> rw [hw] <;>
        exact ⟨rfl, rfl⟩
  | arrive d =>
    cases h
    unfold arrive
    split_ifs <;> exact ⟨rfl, rfl⟩
  | reset => exact absurd rfl hreset
  | resetMid l done entry => exact absurd rfl (hmid l done entry)

/-- Below the new `rx_len` the buffer reads as the datagram, whatever it held before. -/
theorem State.latch_read_congr {s s' : State} {d : Datagram} {a : Nat} (hbuild : s.build = s'.build)
    (ha : a < (s'.latch d).rxLen) :
    Memory.read (s.latch d).rxBuf a = Memory.read (s'.latch d).rxBuf a := by
  rw [State.latch_rxLen] at ha
  rw [State.latch_read, State.latch_read, hbuild, if_pos ha, if_pos ha]

/-- The same step but for a buffer that differs past the datagram. -/
def SameDatagram (r r' : Host.Outcome State Fault Refusal) : Prop :=
  ∃ m, Memory.wf m ∧ r' = onNext (State.withBuf m) r ∧
    ∀ t, r = .next t → ∀ a < t.rxLen, Memory.read m a = Memory.read t.rxBuf a

theorem receiveStep_sameDatagram {s : State} {m : Memory} (hm : Memory.wf m)
    (heq : ∀ a < s.rxLen, Memory.read m a = Memory.read s.rxBuf a) :
    SameDatagram (receiveStep s) (receiveStep (s.withBuf m)) := by
  cases hfatal : s.env.rxFatal with
  | true =>
    rw [receiveStep_fatal hfatal, receiveStep_fatal (s := s.withBuf m) hfatal]
    exact ⟨m, hm, rfl, fun t ht => by obtain rfl := Host.Outcome.next.inj ht; exact heq⟩
  | false =>
    cases hq : s.env.rxq with
    | nil =>
      rw [receiveStep_nothing hfatal hq, receiveStep_nothing (s := s.withBuf m) hfatal hq]
      exact ⟨m, hm, rfl, fun t ht => by cases ht⟩
    | cons d q =>
      rw [receiveStep_datagram hfatal hq, receiveStep_datagram (s := s.withBuf m) hfatal hq]
      refine ⟨((s.withBuf m).latch d).rxBuf, Memory.write_wf hm _ _, rfl, fun t ht a ha => ?_⟩
      obtain rfl := Host.Outcome.next.inj ht
      exact State.latch_read_congr rfl ha

/-- The step, for the moves on the agenda that are not resets: the block's step or the agent's move. -/
theorem step_of_not_reset {s : State} (hr : resetNext s = false) :
    ∃ ms, (∀ m, step (s.withBuf m) = blockStep ((s.withAgenda ms).withBuf m)) ∧
        step s = blockStep (s.withAgenda ms) ∨
      ∃ mv, mv ≠ .reset ∧ (∀ l done entry, mv ≠ .resetMid l done entry) ∧
        (∀ m, step (s.withBuf m) = agentMove mv ((s.withAgenda ms).withBuf m)) ∧
        step s = agentMove mv (s.withAgenda ms) := by
  cases ha : s.env.agenda with
  | nil =>
    have hs : s.withAgenda [] = s := by rw [State.withAgenda, ← ha]
    refine ⟨[], .inl ⟨fun m => ?_, ?_⟩⟩
    · rw [hs, step_of_agenda_nil (s := s.withBuf m) ha]
    · rw [hs, step_of_agenda_nil ha]
  | cons mv ms =>
    refine ⟨ms, ?_⟩
    by_cases hb : mv = .block ∧ blockEnabled (s.withAgenda ms) = true
    · refine .inl ⟨fun m => ?_, ?_⟩
      · simp only [step, State.withBuf_env, ha]
        exact if_pos hb
      · simp only [step, ha]
        exact if_pos hb
    · refine .inr ⟨mv, ?_, ?_, fun m => ?_, ?_⟩
      · rintro rfl
        simp [resetNext, ha] at hr
      · rintro l done entry rfl
        simp [resetNext, ha] at hr
      · simp only [step, State.withBuf_env, ha]
        exact if_neg hb
      · simp only [step, ha]
        exact if_neg hb

theorem step_withBuf_of_not_receiving {s : State} {m : Memory} (hwf : Memory.wf s.rxBuf)
    (hm : Memory.wf m) (heq : ∀ a < s.rxLen, Memory.read m a = Memory.read s.rxBuf a)
    (hne : s.fsm ≠ .receiving) (hr : resetNext s = false) :
    step (s.withBuf m) = onNext (State.withBuf m) (step s) := by
  obtain ⟨ms, ⟨hm', hs⟩ | ⟨mv, hreset, hmid, hm', hs⟩⟩ := step_of_not_reset hr <;> rw [hm', hs]
  · exact blockStep_withBuf (s := s.withAgenda ms) (State.memRead_withBuf hwf hm heq) hne
  · exact agentMove_withBuf hreset hmid _ m

theorem step_sameDatagram_of_receiving {s : State} {m : Memory} (hm : Memory.wf m)
    (heq : ∀ a < s.rxLen, Memory.read m a = Memory.read s.rxBuf a) (hf : s.fsm = .receiving)
    (hr : resetNext s = false) : SameDatagram (step s) (step (s.withBuf m)) := by
  obtain ⟨ms, ⟨hm', hs⟩ | ⟨mv, hreset, hmid, hm', hs⟩⟩ := step_of_not_reset hr <;> rw [hm', hs]
  · have hblock : ∀ u : State, u.fsm = .receiving → blockStep u = receiveStep u := by
      intro u hu
      rw [blockStep, hu]
    rw [hblock (s.withAgenda ms) hf, hblock ((s.withAgenda ms).withBuf m) hf]
    exact receiveStep_sameDatagram hm heq
  · refine ⟨m, hm, agentMove_withBuf hreset hmid _ m, fun t ht => ?_⟩
    obtain ⟨hlen, hbuf⟩ := agentMove_latch hreset hmid ht
    rw [hlen, hbuf]
    exact heq

/-- A reset clears the buffer and reads nothing of it. -/
theorem step_withBuf_of_reset {s : State} (m : Memory) (hr : resetNext s = true) :
    step (s.withBuf m) = step s := by
  unfold resetNext at hr
  split at hr
  · rename_i ms ha
    rw [step_of_move (s := s.withBuf m) ha nofun, step_of_move ha nofun]
    rfl
  · rename_i ms ha
    rw [step_of_move (s := s.withBuf m) ha nofun, step_of_move ha nofun]
    rfl
  · cases hr

/-- Settles O43: the step reads the buffer through `MemRead` alone, a `Recv` writes the datagram into
whatever buffer there is, and a reset empties it. -/
theorem bytesPastTheDatagramDoNotMatter : Obligations.BytesPastTheDatagramDoNotMatter := by
  intro s m hwf hm heq
  refine ⟨fun hne hr => ?_, fun hf hr => ?_, step_withBuf_of_reset m⟩
  · have h := step_withBuf_of_not_receiving hwf hm heq hne hr
    cases hs : step s <;> rw [hs] at h <;> exact h
  · obtain ⟨m', hm', h, hread⟩ := step_sameDatagram_of_receiving hm heq hf hr
    refine ⟨m', hm', ?_, hread⟩
    cases hs : step s <;> rw [hs] at h <;> exact h

end Sys2Proof.Machine
end

section
/-!
PROOFS. The commands' frame (41_command_execution.md), the steps of the receive loop
(42_receive_loop_and_host.md R116 to R123), and the run of one datagram from IDLE back to IDLE (R124).
-/

namespace Sys2Proof.Machine

/-! ### The commands -/

/-- Settles O23: a request, its count and the edge to IDLE write none of these. -/
theorem commandsLeaveTheRestUnchanged : Obligations.CommandsLeaveTheRestUnchanged := by
  intro i s t h
  obtain ⟨_, _, -, rfl⟩ | ⟨-, rfl⟩ | ⟨_, _, _, _, -, -, rfl⟩ | ⟨_, -, rfl⟩ := exec_cases h
  · refine ⟨fun _ => rfl, rfl, rfl, rfl, rfl, rfl, rfl, rfl, rfl, rfl, rfl, rfl, rfl, rfl, rfl, rfl, rfl,
      rfl, fun c hc => ?_⟩
    have hne : c ≠ sendCounter s.sendAnswer := by
      rintro rfl
      cases hs : s.sendAnswer <;> simp [hs, sendCounter, Counter.countedIn] at hc
    exact (s.cnt.get_bump _ c).trans (if_neg hne)
  · exact ⟨fun _ => rfl, rfl, rfl, rfl, rfl, rfl, rfl, rfl, rfl, rfl, rfl, rfl, rfl, rfl, rfl, rfl, rfl,
      rfl, fun _ _ => rfl⟩
  · refine ⟨fun _ => rfl, rfl, rfl, rfl, rfl, rfl, rfl, rfl, rfl, rfl, rfl, rfl, rfl, rfl, rfl, rfl, rfl,
      rfl, fun c hc => ?_⟩
    have hne : c ≠ writeCounter (writeResult s.transmitAnswer) := by
      rintro rfl
      cases hs : s.transmitAnswer <;> simp [hs, writeResult, writeCounter, Counter.countedIn] at hc
    exact (s.cnt.get_bump _ c).trans (if_neg hne)
  · exact ⟨fun _ => rfl, rfl, rfl, rfl, rfl, rfl, rfl, rfl, rfl, rfl, rfl, rfl, rfl, rfl, rfl, rfl, rfl,
      rfl, fun _ _ => rfl⟩

/-- Settles O12: the answer alone decides the counter, the event code and what the network carried. -/
theorem pollSendsOneReply : Obligations.PollSendsOneReply := by
  intro flags diag s
  simp only [exec, execOpPoll, State.send, State.count, State.finish]
  cases s.sendAnswer with
  | ok => rfl
  | fail => rfl

/-- Settles O18: a read past `rx_len` has no value. -/
theorem outputPastTheDatagramStops : Obligations.OutputPastTheDatagramStops := by
  intro seq uni n s hpast
  have hdata : s.channelData n = none := if_neg (by omega)
  simp only [exec, execOpOutput, hdata]

/-! ### The receive loop -/

/-- Settles O25: 0 is rejected before any range is looked at. -/
theorem clockZeroIsRejected : Obligations.ClockZeroIsRejected := by
  intro b
  refine ⟨rfl, fun hz hne => ?_⟩
  rw [clkOk, bne_iff_ne.2 hne, Bool.true_and]
  simp

theorem step_of_idle {s : State} (hf : s.fsm = .idle) (ha : s.env.agenda = []) :
    step s = idleStep s := by
  rw [step_of_agenda_nil ha, blockStep, hf]

theorem step_of_receiving {s : State} (hf : s.fsm = .receiving) (ha : s.env.agenda = []) :
    step s = receiveStep s := by
  rw [step_of_agenda_nil ha, blockStep, hf]

theorem step_of_idle_pending {s : State} (hf : s.fsm = .idle) (ha : s.env.agenda = [])
    (hp : s.env.rxFatal = true ∨ s.env.rxq ≠ []) : step s = .next (s.goto .receiving) := by
  rw [step_of_idle hf ha, idleStep, if_pos (rxPending_iff.2 hp)]

/-- Settles O26: the two cases of `RxPending`. -/
theorem idleWaitsForADatagram : Obligations.IdleWaitsForADatagram := by
  intro s hf ha
  refine ⟨step_of_idle_pending hf ha, fun hfatal hq => ?_⟩
  rw [step_of_idle hf ha, idleStep, if_neg (by simp [rxPending, hfatal, hq])]

/-- Settles O28: the two FSM states without a step. -/
theorem configAndHaltedHaveNoStep : Obligations.ConfigAndHaltedHaveNoStep := by
  intro s ha
  rw [step_of_agenda_nil ha]
  exact ⟨fun hf => by rw [blockStep, hf, configStep], fun hf => by rw [blockStep, hf, haltedStep]⟩

/-- Settles O27: what `Recv` answers decides, and a datagram is written over the buffer's beginning. -/
theorem receivingLatchesTheOldestDatagram : Obligations.ReceivingLatchesTheOldestDatagram := by
  intro s d q hf ha
  rw [step_of_receiving hf ha]
  refine ⟨receiveStep_fatal, receiveStep_nothing, fun hfatal hq hwf => ?_⟩
  exact ⟨(s.latch d).rxBuf, Memory.write_wf hwf _ _, s.latch_read d, receiveStep_datagram hfatal hq⟩

theorem step_accept {s : State} (ha : s.env.agenda = []) (i : Instr) :
    step (s.accept i) = exec i (s.accept i) := by
  rw [step_of_dispatching (State.accept_fsm s i) (by rw [State.accept_env, ha]), State.accept_cmd]

/-- Settles O11: DECODING latches the command and nothing that `exec` reads besides; DISPATCHING is
`exec` of the latch. -/
theorem stepRunsTheDecodedCommand : Obligations.StepRunsTheDecodedCommand := by
  refine ⟨fun s buf i hs hd => ?_, fun s hf ha => step_of_dispatching hf ha⟩
  have hnext : step (s.accept i) = exec i (s.accept i) := by
    obtain ⟨-, ha, -⟩ := hs
    exact step_accept ha i
  exact ⟨s.accept i, step_of_decode_ok hs hd, State.accept_fsm s i, State.accept_cmd s i,
    State.accept_rxBuf s i, State.accept_rxLen s i, State.accept_rxSrc s i, State.accept_cfg s i,
    State.accept_hist s i, State.accept_env s i, hnext⟩

/-! ### From a datagram to IDLE -/

theorem steps_succ {s t : State} (h : step s = .next t) (k : Nat) : steps (k + 1) s = steps k t := by
  simp only [steps, h]

/-- Every command ends with an event code. -/
theorem exec_lastEvent_ne_none {i : Instr} {s t : State} (h : exec i s = .next t) :
    t.lastEvent ≠ .none := by
  obtain ⟨_, _, -, rfl⟩ | ⟨-, rfl⟩ | ⟨_, _, _, _, -, -, rfl⟩ | ⟨_, -, rfl⟩ := exec_cases h
  · cases hs : s.sendAnswer <;> simp [sendEvent]
  · simp
  · cases hs : s.transmitAnswer <;> simp [writeResult, writeEvent]
  · simp

theorem exec_hist_length_le {i : Instr} {s t : State} (h : exec i s = .next t) :
    t.hist.length ≤ s.hist.length + 1 := by
  obtain ⟨_, _, -, rfl⟩ | ⟨-, rfl⟩ | ⟨_, _, _, _, -, -, rfl⟩ | ⟨_, -, rfl⟩ := exec_cases h <;> simp

/-- A datagram's processing has ended in `t`, from the state `s` in which it was in the latch. -/
structure Processed (s t : State) : Prop where
  fsm : t.fsm = .idle
  rxq : t.env.rxq = s.env.rxq
  rx : t.cnt.rx = s.cnt.rx
  lastEvent : t.lastEvent ≠ .none
  cfg : t.cfg = s.cfg
  haltCause : t.haltCause = s.haltCause
  hist : t.hist.length ≤ s.hist.length + 1

theorem processed_of_exec {i : Instr} {s t : State} (h : exec i s = .next t) : Processed s t := by
  obtain ⟨-, -, -, -, hcfg, hhalt, -, -, -, -, -, -, -, hrxq, -, -, -, hfsm, hcnt⟩ :=
    commandsLeaveTheRestUnchanged i s t h
  exact ⟨hfsm, hrxq, hcnt .rx nofun, exec_lastEvent_ne_none h, hcfg, hhalt, exec_hist_length_le h⟩

/-- A datagram that does not decode is contained in the DECODING step. -/
theorem processed_of_contain (s : State) (op : Half) {c : Counter} {e : Event} (hc : c ≠ .rx)
    (he : e ≠ .none) : Processed s ({ s with lastOpcode := op }.contain c e) :=
  ⟨rfl, rfl, (s.cnt.get_bump c .rx).trans (if_neg hc.symm), he, rfl, rfl, by simp⟩

/-- Accepting a datagram's command changes nothing that the end of its processing is compared with. -/
theorem Processed.of_accept {s t : State} {i : Instr} (h : Processed (s.accept i) t) :
    Processed s t := by
  have hrx : (s.accept i).cnt.rx = s.cnt.rx := by
    cases i <;> rfl
  obtain ⟨hfsm, hrxq, hcnt, hevent, hcfg, hhalt, hhist⟩ := h
  rw [State.accept_env] at hrxq
  rw [State.accept_hist] at hhist
  exact ⟨hfsm, hrxq, hcnt.trans hrx, hevent, hcfg.trans (State.accept_cfg s i),
    hhalt.trans (State.accept_haltCause s i), hhist⟩

/-- From DECODING the block is in IDLE again after one step, or after the command's. -/
theorem processed_of_decoding {s : State} {buf : List Byte} (h : Decoding s buf) :
    ∃ k t, (k = 1 ∨ k = 2) ∧ steps k s = some t ∧ Processed s t := by
  have hstep := step_of_decoding h
  obtain ⟨-, ha, hread⟩ := h
  cases hd : decode s.build.vchkPollReply buf with
  | err e =>
    rw [hd] at hstep
    cases e with
    | badHeader =>
      exact ⟨1, _, .inl rfl, steps_succ hstep 0, processed_of_contain s s.lastOpcode nofun nofun⟩
    | truncated => exact ⟨1, _, .inl rfl, steps_succ hstep 0, processed_of_contain s _ nofun nofun⟩
  | ok i =>
    have hread' : (s.accept i).memRead 0 (s.accept i).rxLen = some buf := by
      rw [State.memRead_accept, State.accept_rxLen, hread]
    obtain ⟨t, ht⟩ := exec_of_decoded hread' hd
    have hsteps : steps 2 s = some t :=
      calc steps 2 s
        _ = steps 1 (s.accept i) := steps_succ (by rw [hstep, hd, State.decoded]) 1
        _ = some t := steps_succ ((step_accept ha i).trans ht) 0
    exact ⟨2, t, .inr rfl, hsteps, (processed_of_exec ht).of_accept⟩

/-- IDLE and RECEIVING take a step each and leave the oldest datagram in the latch. -/
theorem idle_reaches_decoding {s : State} {d : Datagram} {q : List Datagram} (hf : s.fsm = .idle)
    (ha : s.env.agenda = []) (hfatal : s.env.rxFatal = false) (hq : s.env.rxq = d :: q)
    (hwf : Memory.wf s.rxBuf) :
    ∃ u, (∀ k, steps (k + 2) s = steps k u) ∧ Decoding u (d.bytes.take s.build.rxCap) ∧
      u.env.rxq = q ∧ u.cnt.rx = s.cnt.rx + 1 ∧ u.cfg = s.cfg ∧ u.haltCause = s.haltCause ∧
      u.hist = s.hist := by
  have hwake : step s = .next (s.goto .receiving) := step_of_idle_pending hf ha (.inr (by simp [hq]))
  have hrecv := (step_of_receiving (s := s.goto .receiving) rfl ha).trans
    (receiveStep_datagram hfatal hq)
  exact ⟨_, fun k => (steps_succ hwake (k + 1)).trans (steps_succ hrecv k),
    ⟨rfl, ha, State.latch_memRead hwf d⟩, rfl, rfl, rfl, rfl, rfl⟩

/-- Settles O31: two steps bring the datagram into the latch, and one or two more end its processing. -/
theorem everyDatagramIsProcessed : Obligations.EveryDatagramIsProcessed := by
  intro s d q hf ha hfatal hq hwf
  obtain ⟨u, hsteps, hdec, hrxq, hrx, hcfg, hhalt, hhist⟩ :=
    idle_reaches_decoding hf ha hfatal hq hwf
  obtain ⟨k, t, hk, ht, hend⟩ := processed_of_decoding hdec
  exact ⟨k + 2, t, by omega, (hsteps k).trans ht, hend.fsm, hend.rxq.trans hrxq, hend.rx.trans hrx,
    hend.lastEvent, hend.cfg.trans hcfg, hend.haltCause.trans hhalt, hhist ▸ hend.hist⟩

end Sys2Proof.Machine
end

section
/-!
PROOFS. The register map and the host's accesses (10_state.md R33 to R42; 42_receive_loop_and_host.md
R126 to R128), what a reset leaves (70_reset_and_hazards.md R149, R150), and the moves of the inputs and
the network collaborator (10_state.md R43, R45).
-/

namespace Sys2Proof.Machine

/-! ### Words as sums of their fields -/

theorem toNat_append_eq {v w : Nat} (x : BitVec v) (y : BitVec w) :
    (x ++ y).toNat = 2 ^ w * x.toNat + y.toNat := by
  rw [BitVec.toNat_append, ← Nat.shiftLeft_add_eq_or_of_lt y.isLt, Nat.shiftLeft_eq, Nat.mul_comm]

theorem extractLsb'_eq_of_toNat {n start len : Nat} {x : BitVec n} {y : BitVec len}
    (h : x.toNat / 2 ^ start % 2 ^ len = y.toNat) : x.extractLsb' start len = y := by
  rw [← BitVec.toNat_inj, BitVec.extractLsb'_toNat, Nat.shiftRight_eq_div_pow, h]

theorem getLsbD_eq_of_toNat {n k : Nat} {x : BitVec n} {b : Bool}
    (h : x.toNat / 2 ^ k % 2 = b.toNat) : x.getLsbD k = b := by
  rw [BitVec.getLsbD, Nat.testBit_eq_decide_div_mod_eq, h]
  cases b <;> rfl

/-! ### The names -/

theorem nameWord_toNat {n : Nat} (v : Vector Byte n) (w : Nat) :
    (nameWord v w).toNat = 2 ^ 24 * (nameByte v (4 * w + 3)).toNat +
      2 ^ 16 * (nameByte v (4 * w + 2)).toNat + 2 ^ 8 * (nameByte v (4 * w + 1)).toNat +
      (nameByte v (4 * w)).toNat := by
  rw [nameWord, toNat_append_eq, toNat_append_eq, toNat_append_eq]
  omega

/-- Byte `j` of a word of a name, the low byte first (R40). -/
theorem extractLsb'_nameWord {n : Nat} (v : Vector Byte n) (w : Nat) {j : Nat} (hj : j < 4) :
    (nameWord v w).extractLsb' (8 * j) 8 = nameByte v (4 * w + j) := by
  have h0 := (nameByte v (4 * w)).isLt
  have h1 := (nameByte v (4 * w + 1)).isLt
  have h2 := (nameByte v (4 * w + 2)).isLt
  have h3 := (nameByte v (4 * w + 3)).isLt
  refine extractLsb'_eq_of_toNat ?_
  rw [nameWord_toNat]
  interval_cases j
  · simp only [Nat.add_zero]
    omega
  · omega
  · omega
  · omega

theorem nameByte_of_lt {n k : Nat} (v : Vector Byte n) (h : k < n) : nameByte v k = v[k] := by
  rw [nameByte, List.getD_eq_getElem _ _ (by simpa using h), Vector.getElem_toList]

theorem nameByte_of_ge {n k : Nat} (v : Vector Byte n) (h : n ≤ k) : nameByte v k = 0 := by
  rw [nameByte, List.getD_eq_default _ _ (by simpa using h)]

theorem extractLsb'_nameWord_div {n k : Nat} (v : Vector Byte n) (h : k < n) :
    (nameWord v (k / 4)).extractLsb' (8 * (k % 4)) 8 = v[k] := by
  rw [extractLsb'_nameWord v _ (Nat.mod_lt _ (by decide)), Nat.div_add_mod, nameByte_of_lt v h]

/-- The half of a name's last word past the name's end. -/
theorem extractLsb'_nameWord_reserved {n w : Nat} (v : Vector Byte n) (h : n ≤ 4 * w + 2) :
    (nameWord v w).extractLsb' 16 16 = 0 := by
  have h0 := (nameByte v (4 * w)).isLt
  have h1 := (nameByte v (4 * w + 1)).isLt
  refine extractLsb'_eq_of_toNat ?_
  rw [nameWord_toNat, nameByte_of_ge v h, nameByte_of_ge v (k := 4 * w + 3) (by omega)]
  simp only [BitVec.ofNat_eq_ofNat, BitVec.toNat_zero]
  omega

/-- Settles O46: the map gives a name byte's word, and the word its bytes. -/
theorem nameBytesArePackedLowByteFirst : Obligations.NameBytesArePackedLowByteFirst := by
  intro s
  refine ⟨fun k hk => ?_, ?_, fun k hk => ?_⟩
  · rw [regAt_shortName (by omega), State.readReg, extractLsb'_nameWord_div _ hk]
  · have hreg : regAt 0x050 = .shortName 4 := regAt_shortName (w := 4) (by decide)
    rw [hreg, State.readReg, extractLsb'_nameWord_reserved _ (by decide)]
  · rw [regAt_longName (by omega), State.readReg, extractLsb'_nameWord_div _ hk]

@[simp] theorem getElem_setNameWord {n k : Nat} (v : Vector Byte n) (w : Nat) (x : Word) (h : k < n) :
    (setNameWord v w x)[k] = if k / 4 = w then x.extractLsb' (8 * (k % 4)) 8 else v[k] := by
  simp [setNameWord]

/-! ### STATUS -/

/-- STATUS as the sum of its fields, each at its lowest bit (R35). -/
theorem State.status_toNat (s : State) :
    s.status.toNat = 2 ^ 25 * s.env.sinkReady.toNat + 2 ^ 24 * s.env.netReady.toNat +
      2 ^ 16 * s.lastEvent.code.toNat + 2 ^ 8 * s.haltCause.code.toNat + 2 ^ 3 * s.haltedBit.toNat +
      s.fsm.code.toNat := by
  unfold State.status
  repeat rw [toNat_append_eq]
  simp only [BitVec.toNat_ofBool, BitVec.ofNat_eq_ofNat, BitVec.toNat_zero]
  omega

theorem State.status_field_bounds (s : State) :
    s.fsm.code.toNat < 2 ^ 3 ∧ s.haltedBit.toNat < 2 ^ 1 ∧ s.haltCause.code.toNat < 2 ^ 4 ∧
      s.lastEvent.code.toNat < 2 ^ 4 ∧ s.env.netReady.toNat < 2 ∧ s.env.sinkReady.toNat < 2 :=
  ⟨BitVec.isLt _, BitVec.isLt _, BitVec.isLt _, BitVec.isLt _, Bool.toNat_lt _, Bool.toNat_lt _⟩

@[simp] theorem State.status_netReady (s : State) : s.status.getLsbD 24 = s.env.netReady := by
  obtain ⟨hfsm, hhalted, hcause, hevent, hnet, -⟩ := s.status_field_bounds
  refine getLsbD_eq_of_toNat ?_
  rw [s.status_toNat]
  omega

@[simp] theorem State.status_sinkReady (s : State) : s.status.getLsbD 25 = s.env.sinkReady := by
  obtain ⟨hfsm, hhalted, hcause, hevent, hnet, hsink⟩ := s.status_field_bounds
  refine getLsbD_eq_of_toNat ?_
  rw [s.status_toNat]
  omega

theorem State.status_halted_iff (s : State) : s.status.getLsbD 3 = true ↔ s.fsm = .halted := by
  have hbit : s.status.getLsbD 3 = decide (s.fsm = .halted) := by
    obtain ⟨hfsm, hhalted, hcause, hevent, hnet, hsink⟩ := s.status_field_bounds
    have hval : s.haltedBit.toNat = (decide (s.fsm = .halted)).toNat := by
      cases hf : s.fsm <;> simp [State.haltedBit, hf]
    refine getLsbD_eq_of_toNat ?_
    rw [s.status_toNat, ← hval]
    omega
  rw [hbit, decide_eq_true_iff]

/-- Settles O47: the fields are the digits of the sum; the codes are the definitions' own. -/
theorem statusShowsItsFields : Obligations.StatusShowsItsFields := by
  intro s
  obtain ⟨hfsm, hhalted, hcause, hevent, hnet, hsink⟩ := s.status_field_bounds
  have field : ∀ {start len : Nat} {y : BitVec len},
      (2 ^ 25 * s.env.sinkReady.toNat + 2 ^ 24 * s.env.netReady.toNat +
        2 ^ 16 * s.lastEvent.code.toNat + 2 ^ 8 * s.haltCause.code.toNat + 2 ^ 3 * s.haltedBit.toNat +
        s.fsm.code.toNat) / 2 ^ start % 2 ^ len = y.toNat → s.status.extractLsb' start len = y := by
    intro start len y h
    exact extractLsb'_eq_of_toNat (by rw [s.status_toNat, h])
  refine ⟨field (by omega), s.status_halted_iff, field (y := 0) ?_, field (by omega), field (y := 0) ?_,
    field (by omega), field (y := 0) ?_, s.status_netReady, s.status_sinkReady, field (y := 0) ?_,
    rfl, rfl, rfl, rfl, rfl, rfl, rfl, rfl, rfl, rfl, rfl, rfl, rfl, rfl, rfl, rfl, rfl, rfl, rfl, rfl, rfl,
    rfl, rfl⟩
  all_goals
    simp only [BitVec.ofNat_eq_ofNat, BitVec.toNat_zero]
    omega

/-! ### Reads -/

theorem append_zero_eq_shiftLeft (h : Half) :
    (h ++ (0 : Half) : Word) = h.setWidth 32 <<< 16 := by
  have hlt := h.isLt
  rw [← BitVec.toNat_inj, toNat_append_eq, BitVec.toNat_shiftLeft, BitVec.toNat_setWidth,
    Nat.shiftLeft_eq]
  simp only [BitVec.ofNat_eq_ofNat, BitVec.toNat_zero]
  omega

/-- Settles O45: each offset is a row of the map, and NODE_MAC_LO stands in the upper half. -/
theorem registerMapReads : Obligations.RegisterMapReads := by
  intro s
  exact ⟨rfl, rfl, rfl, rfl, rfl, append_zero_eq_shiftLeft _, rfl, rfl, rfl, rfl, rfl, rfl, rfl, rfl,
    rfl, rfl, rfl, rfl, rfl, rfl, rfl, rfl, rfl⟩

/-- The rows of R33's map lie in these ranges. -/
theorem offset_of_mem_regMap {p : Nat × Reg} (h : p ∈ regMap) :
    p.1 ≤ 0x018 ∨ (0x040 ≤ p.1 ∧ p.1 ≤ 0x050) ∨ (0x080 ≤ p.1 ∧ p.1 ≤ 0x0BC) ∨
      (0x100 ≤ p.1 ∧ p.1 ≤ 0x12C) ∨ (0x140 ≤ p.1 ∧ p.1 ≤ 0x14C) := by
  revert p
  decide

/-- Settles O54: an offset with a row is in none of the gaps. -/
theorem unmappedWordsReadZero : Obligations.UnmappedWordsReadZero := by
  intro s off _ hgap
  obtain hmem | ⟨hreg, -⟩ := regAt_cases off
  · have hrange : off ≤ 0x018 ∨ (0x040 ≤ off ∧ off ≤ 0x050) ∨ (0x080 ≤ off ∧ off ≤ 0x0BC) ∨
        (0x100 ≤ off ∧ off ≤ 0x12C) ∨ (0x140 ≤ off ∧ off ≤ 0x14C) := offset_of_mem_regMap hmem
    omega
  · rw [hreg, State.readReg]

/-! ### Writes -/

/-- A register that a write can reach: the configuration, and CTRL. -/
def Reg.Writable (r : Reg) : Prop := r.isCfg = true ∨ r = .ctrl

/-- The rows of the writable registers lie in these ranges. -/
theorem offset_of_writable {off : Nat} (h : (regAt off).Writable) :
    (off ≤ 0x018 ∧ off ≠ 0x004) ∨ (0x040 ≤ off ∧ off ≤ 0x050) ∨ (0x080 ≤ off ∧ off ≤ 0x0BC) := by
  have all : ∀ p ∈ regMap, p.2.isCfg = true ∨ p.2 = .ctrl →
      (p.1 ≤ 0x018 ∧ p.1 ≠ 0x004) ∨ (0x040 ≤ p.1 ∧ p.1 ≤ 0x050) ∨ (0x080 ≤ p.1 ∧ p.1 ≤ 0x0BC) := by
    decide
  obtain hmem | ⟨hreg, -⟩ := regAt_cases off
  · exact all _ hmem h
  · simp [hreg, Reg.Writable, Reg.isCfg] at h

/-- A write outside CONFIG, or of a register that is not writable, does nothing. -/
theorem State.writeReg_eq_self {s : State} {r : Reg} (v : Word)
    (h : s.fsm ≠ .config ∨ ¬ r.Writable) : s.writeReg r v = s := by
  obtain hw | ⟨hf, hctrl, -, -⟩ | ⟨hf, -, hw⟩ := s.writeReg_cases r v
  · exact hw
  · exact absurd h (by simp [hf, hctrl, Reg.Writable])
  · have hr : r.isCfg = false := by simp_all [Reg.Writable]
    rw [hw, NodeCfg.write_of_not_isCfg _ _ hr]

/-- Settles O53: none of the offsets is a writable register's. -/
theorem otherHostWritesHaveNoEffect : Obligations.OtherHostWritesHaveNoEffect := by
  intro s off v ms halign hmax ha hno
  have hok : accessOk off 4 = true := accessOk_iff.2 ⟨rfl, halign, by omega⟩
  have hself : (s.withAgenda ms).writeReg (regAt off) v = s.withAgenda ms := by
    refine State.writeReg_eq_self v ?_
    obtain hf | hoff := hno
    · exact .inl hf
    · refine .inr fun hw => ?_
      have hrange := offset_of_writable hw
      omega
  rw [step_of_host ha, hostAccess_write hok, hself, State.withAgenda]

theorem accessOk_of_mem_regMap {p : Nat × Reg} (h : p ∈ regMap) : accessOk p.1 4 = true := by
  revert p
  decide

/-- In CONFIG a write of a row of the map but CTRL is a write of the configuration. -/
theorem step_of_config_write {s : State} {off : Nat} {r : Reg} {v : Word} {ms : List Move}
    (hf : s.fsm = .config) (ha : s.env.agenda = .host (.write off 4 v) :: ms) (hr : r ≠ .ctrl)
    (hmem : (off, r) ∈ regMap) :
    step s = .next { s with cfg := s.cfg.write v r, env := { s.env with agenda := ms } } := by
  have hok : accessOk off 4 = true := accessOk_of_mem_regMap hmem
  have hreg : regAt off = r := regAt_of_mem hmem
  rw [step_of_host ha, hostAccess_write hok, hreg, State.writeReg, State.withAgenda_fsm, if_pos hf,
    if_neg hr]
  rfl

/-- Settles O51: the five rows are in the map. -/
theorem configWriteSetsItsRegister : Obligations.ConfigWriteSetsItsRegister := by
  intro s v off ms hf ha
  refine ⟨?_, ?_, ?_, ?_, ?_⟩ <;> rintro rfl
  · exact step_of_config_write (r := .serClkHz) hf ha nofun (by decide)
  · exact step_of_config_write (r := .nodeIp) hf ha nofun (by decide)
  · exact step_of_config_write (r := .nodeMacHi) hf ha nofun (by decide)
  · exact step_of_config_write (r := .nodeMacLo) hf ha nofun (by decide)
  · exact step_of_config_write (r := .numPorts) hf ha nofun (by decide)

theorem shortName_mem_regMap {w : Nat} (h : w < 5) : (0x040 + 4 * w, Reg.shortName w) ∈ regMap := by
  revert w
  decide

theorem longName_mem_regMap {w : Nat} (h : w < 16) : (0x080 + 4 * w, Reg.longName w) ∈ regMap := by
  revert w
  decide

/-- Settles O52: the name words are rows of the map, and the name written is `setNameWord`'s. -/
theorem nameWriteSetsItsBytes : Obligations.NameWriteSetsItsBytes := by
  intro s v w ms hf
  refine ⟨fun hw ha => ⟨setNameWord s.cfg.shortName w v, fun k hk => getElem_setNameWord _ w v hk, ?_⟩,
    fun hw ha => ⟨setNameWord s.cfg.longName w v, fun k hk => getElem_setNameWord _ w v hk, ?_⟩⟩
  · exact step_of_config_write (r := .shortName w) hf ha nofun (shortName_mem_regMap hw)
  · exact step_of_config_write (r := .longName w) hf ha nofun (longName_mem_regMap hw)

/-! ### Reset -/

/-- Settles O55: the reset is `State.applyReset` of the state with its agenda advanced. -/
theorem resetLeavesTheResetValues : Obligations.ResetLeavesTheResetValues := by
  intro s ms ha
  refine ⟨(s.withAgenda ms).applyReset, step_of_move ha nofun, rfl, rfl, rfl, rfl, rfl, rfl, rfl, rfl,
    fun k hk => ?_, fun k hk => ?_, fun c => ?_, rfl, rfl, rfl, rfl, rfl, rfl, ?_, ?_, rfl, rfl⟩
  · exact Vector.getElem_replicate hk
  · exact Vector.getElem_replicate hk
  · cases c <;> rfl
  · exact State.status_netReady _
  · exact State.status_sinkReady _

/-- A reset in the middle of a step leaves the reset values, but for what the interrupted step left. -/
theorem step_of_resetMid {s : State} {l : List Byte} {done : Bool} {entry : Option SendAnswer}
    {ms : List Move} (ha : s.env.agenda = .resetMid l done entry :: ms) :
    step s = .next { State.reset with
      build := s.build
      hist := interruptedHist entry (s.withAgenda ms)
      env := interruptedEnv l done (s.withAgenda ms) } :=
  step_of_move ha nofun

/-- Settles O56: what the interrupted step left, by the request it was making. -/
theorem resetDuringAStepLeavesItsEffectOpen : Obligations.ResetDuringAStepLeavesItsEffectOpen := by
  intro s l done entry ms ha
  rw [step_of_resetMid ha]
  refine ⟨fun seq uni n hf hc => ?_, fun flags diag hf hc => ?_, fun hf => ?_, fun hrest hne => ?_⟩
  · simp [interruptedHist, interruptedEnv, hf, hc, State.reset]
  · cases entry <;> cases done <;> simp [interruptedHist, interruptedEnv, hf, hc, State.reset]
  · cases done <;> cases hfatal : s.env.rxFatal <;>
      simp [interruptedHist, interruptedEnv, Env.afterRecv, hf, hfatal, State.reset]
  · have hhist : interruptedHist entry (s.withAgenda ms) = [] := by
      obtain h | ⟨r, -, hf, ⟨flags, diag, hc⟩, -⟩ := interruptedHist_cases entry (s.withAgenda ms)
      · exact h
      · rw [State.withAgenda_fsm] at hf
        rw [State.withAgenda_cmd] at hc
        simp [hf, hc] at hrest
    have henv : interruptedEnv l done (s.withAgenda ms) = { s.env with agenda := ms } := by
      obtain h | ⟨hf, -⟩ | ⟨hf, ⟨flags, diag, hc⟩, -⟩ | ⟨hf, ⟨seq, uni, n, hc⟩, -⟩ :=
        interruptedEnv_cases l done (s.withAgenda ms)
      · exact h
      · exact absurd hf hne
      all_goals
        rw [State.withAgenda_fsm] at hf
        rw [State.withAgenda_cmd] at hc
        simp [hf, hc] at hrest
    rw [hhist, henv]
    rfl

/-! ### The inputs and the network collaborator -/

/-- Settles O57: the move writes the input, and STATUS shows the inputs of the state it is read in. -/
theorem inputsAreLive : Obligations.InputsAreLive := by
  intro s b ms
  refine ⟨fun ha => ⟨_, step_of_move ha nofun, rfl, ?_, ?_⟩,
    fun ha => ⟨_, step_of_move ha nofun, rfl, ?_, ?_⟩⟩
  · exact State.status_netReady _
  · rw [State.status_sinkReady, State.status_sinkReady]; rfl
  · exact State.status_sinkReady _
  · rw [State.status_netReady, State.status_netReady]; rfl

/-- Settles O58: the two cases of the queue's depth. -/
theorem arrivalsQueueInOrderOrDrop : Obligations.ArrivalsQueueInOrderOrDrop := by
  intro s d ms ha
  by_cases hroom : s.env.rxq.length < s.build.rxqDepth
  · rw [if_pos hroom]
    exact (step_of_move ha nofun).trans (congrArg Host.Outcome.next (if_pos hroom))
  · rw [if_neg hroom]
    exact (step_of_move ha nofun).trans (congrArg Host.Outcome.next (if_neg hroom))

/-- Settles O60: the move raises the condition, and `RxPending` asks for it first. -/
theorem fatalReceiveIsSignalled : Obligations.FatalReceiveIsSignalled := by
  intro s ms ha
  exact ⟨step_of_move ha nofun, rxPending_iff.2 (.inl rfl)⟩

end Sys2Proof.Machine
end
